-- ==== Sys2Proof/Word.lean ====
section
/-! DEFINITION. The two word types of the machine (spec R8: data registers are 8 bits, PC and
addresses are 16 bits). -/

namespace Sys2Proof

/-- An 8-bit value: a data register, a byte of memory, an opcode, `op8` (R8, R12). -/
abbrev Byte := BitVec 8

/-- A 16-bit value: PC, an address, `op16` (R8, R12). -/
abbrev Word := BitVec 16

end Sys2Proof
end

