-- ==== Sys2Proof/Config.lean ====
section
/-! DEFINITION. The spec's open parameters FLAG_LAYOUT and IMPLEMENTED (R9), as data that the
machine's state carries and no step changes. The third parameter, IMAGE, is the contents of memory. -/

namespace Sys2Proof

/-- The eight bits of P, by the names R27 gives them: Carry, Zero, InterruptDisable, Decimal,
Break, Unused, Overflow, Negative. -/
inductive Flag where
  | c | z | i | d | b | u | v | n
  deriving DecidableEq, Repr

/-- `FLAG_LAYOUT` (R9, R28, D1): `ascending` puts C at bit 0 and N at bit 7, `literal` the other
way round. -/
inductive FlagLayout where
  | ascending
  | literal
  deriving DecidableEq, Repr

/-- The parameters of one engine (R9). `implemented` is the set IMPLEMENTED as a strictly rising
list of opcode bytes; `Config.wf` says what R9 asks of it. -/
structure Config where
  layout : FlagLayout
  implemented : List Byte
  deriving DecidableEq, Repr

end Sys2Proof
end

