-- ==== Sys2Proof/Machine/Modes.lean ====
section
/-! DEFINITION. The 56 mnemonics (R84), the 13 addressing modes with their operand lengths (R81) and
the operand forms: a mode with the raw operand fetched for it (R82). -/

namespace Sys2Proof

/-- The 56 mnemonics of R84. -/
inductive Mnemonic where
  | adc | and | asl | bcc | bcs | beq | bit | bmi | bne | bpl | brk | bvc | bvs | clc
  | cld | cli | clv | cmp | cpx | cpy | dec | dex | dey | eor | inc | inx | iny | jmp
  | jsr | lda | ldx | ldy | lsr | nop | ora | pha | php | pla | plp | rol | ror | rti
  | rts | sbc | sec | sed | sei | sta | stx | sty | tax | tay | tsx | txa | txs | tya
  deriving DecidableEq, Repr

/-- The 13 addressing modes, by the tags of R81. -/
inductive Mode where
  | imp | acc | imm | zp | zpx | zpy | rel | indx | indy | abs | absx | absy | ind
  deriving DecidableEq, Repr

/-- An addressing mode together with the raw operand fetched for it (R82): nothing, `op8` or `op16`. -/
inductive Operand where
  /-- implied (R171) -/
  | imp
  /-- accumulator (R172) -/
  | acc
  /-- immediate `#op8` (R173) -/
  | imm (op8 : Byte)
  /-- zero-page `op8` (R174) -/
  | zp (op8 : Byte)
  /-- zero-page-indexed-by-X `op8,X` (R175) -/
  | zpx (op8 : Byte)
  /-- zero-page-indexed-by-Y `op8,Y` (R176) -/
  | zpy (op8 : Byte)
  /-- relative (R183) -/
  | rel (op8 : Byte)
  /-- zero-page-indexed-indirect-via-X `(op8,X)` (R181) -/
  | indx (op8 : Byte)
  /-- zero-page-indirect-indexed-via-Y `(op8),Y` (R182) -/
  | indy (op8 : Byte)
  /-- absolute `op16` (R177) -/
  | abs (op16 : Word)
  /-- absolute-indexed-by-X `op16,X` (R178) -/
  | absx (op16 : Word)
  /-- absolute-indexed-by-Y `op16,Y` (R179) -/
  | absy (op16 : Word)
  /-- absolute-indirect `(op16)` (R180) -/
  | ind (op16 : Word)
  deriving DecidableEq, Repr

/-- The mode of an operand form. -/
def Operand.mode : Operand → Mode
  | .imp => .imp
  | .acc => .acc
  | .imm _ => .imm
  | .zp _ => .zp
  | .zpx _ => .zpx
  | .zpy _ => .zpy
  | .rel _ => .rel
  | .indx _ => .indx
  | .indy _ => .indy
  | .abs _ => .abs
  | .absx _ => .absx
  | .absy _ => .absy
  | .ind _ => .ind

/-- How many operand bytes a mode takes (R81). -/
def Mode.operandBytes : Mode → Nat
  | .imp | .acc => 0
  | .imm | .zp | .zpx | .zpy | .rel | .indx | .indy => 1
  | .abs | .absx | .absy | .ind => 2

/-- The 16-bit value with high byte `hi` and low byte `lo`, the spec's `hi ++ lo` (R10). -/
def wordOf (hi lo : Byte) : Word := hi ++ lo

/-- Bits 15:8 of a 16-bit value. -/
def hiByte (w : Word) : Byte := w.extractLsb' 8 8

/-- Bits 7:0 of a 16-bit value. -/
def loByte (w : Word) : Byte := w.extractLsb' 0 8

/-- The operand bytes as they stand in memory after the opcode, low byte first (R80, R82). -/
def Operand.bytes : Operand → List Byte
  | .imp | .acc => []
  | .imm b | .zp b | .zpx b | .zpy b | .rel b | .indx b | .indy b => [b]
  | .abs w | .absx w | .absy w | .ind w => [loByte w, hiByte w]

end Sys2Proof
end

