-- ==== Sys2Proof/Syntax.lean ====
section
/-! DEFINITION. The instruction set as syntax: one constructor of `Instr` for each of the 151 rows of
spec/opcode_table.json (R83, R84), carrying its raw operand `op8` or `op16` (R82). -/

namespace Sys2Proof

/-- The instructions of the 6502-like ISA: the 151 rows of the opcode table. Every value of every
operand is encodable, so each term is an instruction. -/
inductive Instr where
  -- Flag instructions (R146 to R152)
  /-- 0x18 `CLC` (R146) -/
  | clc
  /-- 0x38 `SEC` (R147) -/
  | sec
  /-- 0x58 `CLI` (R148) -/
  | cli
  /-- 0x78 `SEI` (R149) -/
  | sei
  /-- 0xD8 `CLD` (R150) -/
  | cld
  /-- 0xF8 `SED` (R151) -/
  | sed
  /-- 0xB8 `CLV` (R152) -/
  | clv
  -- Loads, stores and transfers (R202 to R213)
  /-- 0xA9 `LDA #v` (R202) -/
  | ldaImm (v : Byte)
  /-- 0xA5 `LDA z` (R202) -/
  | ldaZp (z : Byte)
  /-- 0xB5 `LDA z,X` (R202) -/
  | ldaZpx (z : Byte)
  /-- 0xAD `LDA a` (R202) -/
  | ldaAbs (a : Word)
  /-- 0xBD `LDA a,X` (R202) -/
  | ldaAbsx (a : Word)
  /-- 0xB9 `LDA a,Y` (R202) -/
  | ldaAbsy (a : Word)
  /-- 0xA1 `LDA (z,X)` (R202) -/
  | ldaIndx (z : Byte)
  /-- 0xB1 `LDA (z),Y` (R202) -/
  | ldaIndy (z : Byte)
  /-- 0xA2 `LDX #v` (R203) -/
  | ldxImm (v : Byte)
  /-- 0xA6 `LDX z` (R203) -/
  | ldxZp (z : Byte)
  /-- 0xB6 `LDX z,Y` (R203) -/
  | ldxZpy (z : Byte)
  /-- 0xAE `LDX a` (R203) -/
  | ldxAbs (a : Word)
  /-- 0xBE `LDX a,Y` (R203) -/
  | ldxAbsy (a : Word)
  /-- 0xA0 `LDY #v` (R204) -/
  | ldyImm (v : Byte)
  /-- 0xA4 `LDY z` (R204) -/
  | ldyZp (z : Byte)
  /-- 0xB4 `LDY z,X` (R204) -/
  | ldyZpx (z : Byte)
  /-- 0xAC `LDY a` (R204) -/
  | ldyAbs (a : Word)
  /-- 0xBC `LDY a,X` (R204) -/
  | ldyAbsx (a : Word)
  /-- 0x85 `STA z` (R205) -/
  | staZp (z : Byte)
  /-- 0x95 `STA z,X` (R205) -/
  | staZpx (z : Byte)
  /-- 0x8D `STA a` (R205) -/
  | staAbs (a : Word)
  /-- 0x9D `STA a,X` (R205) -/
  | staAbsx (a : Word)
  /-- 0x99 `STA a,Y` (R205) -/
  | staAbsy (a : Word)
  /-- 0x81 `STA (z,X)` (R205) -/
  | staIndx (z : Byte)
  /-- 0x91 `STA (z),Y` (R205) -/
  | staIndy (z : Byte)
  /-- 0x86 `STX z` (R206) -/
  | stxZp (z : Byte)
  /-- 0x96 `STX z,Y` (R206) -/
  | stxZpy (z : Byte)
  /-- 0x8E `STX a` (R206) -/
  | stxAbs (a : Word)
  /-- 0x84 `STY z` (R207) -/
  | styZp (z : Byte)
  /-- 0x94 `STY z,X` (R207) -/
  | styZpx (z : Byte)
  /-- 0x8C `STY a` (R207) -/
  | styAbs (a : Word)
  /-- 0xAA `TAX` (R208) -/
  | tax
  /-- 0xA8 `TAY` (R209) -/
  | tay
  /-- 0x8A `TXA` (R210) -/
  | txa
  /-- 0x98 `TYA` (R211) -/
  | tya
  /-- 0xBA `TSX` (R212) -/
  | tsx
  /-- 0x9A `TXS` (R213) -/
  | txs
  -- Increment and decrement (R232 to R237)
  /-- 0xE6 `INC z` (R232) -/
  | incZp (z : Byte)
  /-- 0xF6 `INC z,X` (R232) -/
  | incZpx (z : Byte)
  /-- 0xEE `INC a` (R232) -/
  | incAbs (a : Word)
  /-- 0xFE `INC a,X` (R232) -/
  | incAbsx (a : Word)
  /-- 0xC6 `DEC z` (R233) -/
  | decZp (z : Byte)
  /-- 0xD6 `DEC z,X` (R233) -/
  | decZpx (z : Byte)
  /-- 0xCE `DEC a` (R233) -/
  | decAbs (a : Word)
  /-- 0xDE `DEC a,X` (R233) -/
  | decAbsx (a : Word)
  /-- 0xE8 `INX` (R234) -/
  | inx
  /-- 0xC8 `INY` (R235) -/
  | iny
  /-- 0xCA `DEX` (R236) -/
  | dex
  /-- 0x88 `DEY` (R237) -/
  | dey
  -- Arithmetic and compare (R251 to R256)
  /-- 0x69 `ADC #v` (R251) -/
  | adcImm (v : Byte)
  /-- 0x65 `ADC z` (R251) -/
  | adcZp (z : Byte)
  /-- 0x75 `ADC z,X` (R251) -/
  | adcZpx (z : Byte)
  /-- 0x6D `ADC a` (R251) -/
  | adcAbs (a : Word)
  /-- 0x7D `ADC a,X` (R251) -/
  | adcAbsx (a : Word)
  /-- 0x79 `ADC a,Y` (R251) -/
  | adcAbsy (a : Word)
  /-- 0x61 `ADC (z,X)` (R251) -/
  | adcIndx (z : Byte)
  /-- 0x71 `ADC (z),Y` (R251) -/
  | adcIndy (z : Byte)
  /-- 0xE9 `SBC #v` (R252) -/
  | sbcImm (v : Byte)
  /-- 0xE5 `SBC z` (R252) -/
  | sbcZp (z : Byte)
  /-- 0xF5 `SBC z,X` (R252) -/
  | sbcZpx (z : Byte)
  /-- 0xED `SBC a` (R252) -/
  | sbcAbs (a : Word)
  /-- 0xFD `SBC a,X` (R252) -/
  | sbcAbsx (a : Word)
  /-- 0xF9 `SBC a,Y` (R252) -/
  | sbcAbsy (a : Word)
  /-- 0xE1 `SBC (z,X)` (R252) -/
  | sbcIndx (z : Byte)
  /-- 0xF1 `SBC (z),Y` (R252) -/
  | sbcIndy (z : Byte)
  /-- 0xC9 `CMP #v` (R254) -/
  | cmpImm (v : Byte)
  /-- 0xC5 `CMP z` (R254) -/
  | cmpZp (z : Byte)
  /-- 0xD5 `CMP z,X` (R254) -/
  | cmpZpx (z : Byte)
  /-- 0xCD `CMP a` (R254) -/
  | cmpAbs (a : Word)
  /-- 0xDD `CMP a,X` (R254) -/
  | cmpAbsx (a : Word)
  /-- 0xD9 `CMP a,Y` (R254) -/
  | cmpAbsy (a : Word)
  /-- 0xC1 `CMP (z,X)` (R254) -/
  | cmpIndx (z : Byte)
  /-- 0xD1 `CMP (z),Y` (R254) -/
  | cmpIndy (z : Byte)
  /-- 0xE0 `CPX #v` (R255) -/
  | cpxImm (v : Byte)
  /-- 0xE4 `CPX z` (R255) -/
  | cpxZp (z : Byte)
  /-- 0xEC `CPX a` (R255) -/
  | cpxAbs (a : Word)
  /-- 0xC0 `CPY #v` (R256) -/
  | cpyImm (v : Byte)
  /-- 0xC4 `CPY z` (R256) -/
  | cpyZp (z : Byte)
  /-- 0xCC `CPY a` (R256) -/
  | cpyAbs (a : Word)
  -- Logical operations and bit test (R270 to R273)
  /-- 0x29 `AND #v` (R270) -/
  | andImm (v : Byte)
  /-- 0x25 `AND z` (R270) -/
  | andZp (z : Byte)
  /-- 0x35 `AND z,X` (R270) -/
  | andZpx (z : Byte)
  /-- 0x2D `AND a` (R270) -/
  | andAbs (a : Word)
  /-- 0x3D `AND a,X` (R270) -/
  | andAbsx (a : Word)
  /-- 0x39 `AND a,Y` (R270) -/
  | andAbsy (a : Word)
  /-- 0x21 `AND (z,X)` (R270) -/
  | andIndx (z : Byte)
  /-- 0x31 `AND (z),Y` (R270) -/
  | andIndy (z : Byte)
  /-- 0x09 `ORA #v` (R271) -/
  | oraImm (v : Byte)
  /-- 0x05 `ORA z` (R271) -/
  | oraZp (z : Byte)
  /-- 0x15 `ORA z,X` (R271) -/
  | oraZpx (z : Byte)
  /-- 0x0D `ORA a` (R271) -/
  | oraAbs (a : Word)
  /-- 0x1D `ORA a,X` (R271) -/
  | oraAbsx (a : Word)
  /-- 0x19 `ORA a,Y` (R271) -/
  | oraAbsy (a : Word)
  /-- 0x01 `ORA (z,X)` (R271) -/
  | oraIndx (z : Byte)
  /-- 0x11 `ORA (z),Y` (R271) -/
  | oraIndy (z : Byte)
  /-- 0x49 `EOR #v` (R272) -/
  | eorImm (v : Byte)
  /-- 0x45 `EOR z` (R272) -/
  | eorZp (z : Byte)
  /-- 0x55 `EOR z,X` (R272) -/
  | eorZpx (z : Byte)
  /-- 0x4D `EOR a` (R272) -/
  | eorAbs (a : Word)
  /-- 0x5D `EOR a,X` (R272) -/
  | eorAbsx (a : Word)
  /-- 0x59 `EOR a,Y` (R272) -/
  | eorAbsy (a : Word)
  /-- 0x41 `EOR (z,X)` (R272) -/
  | eorIndx (z : Byte)
  /-- 0x51 `EOR (z),Y` (R272) -/
  | eorIndy (z : Byte)
  /-- 0x24 `BIT z` (R273) -/
  | bitZp (z : Byte)
  /-- 0x2C `BIT a` (R273) -/
  | bitAbs (a : Word)
  -- Shifts and rotates (R290 to R293)
  /-- 0x0A `ASL A` (R290) -/
  | aslAcc
  /-- 0x06 `ASL z` (R290) -/
  | aslZp (z : Byte)
  /-- 0x16 `ASL z,X` (R290) -/
  | aslZpx (z : Byte)
  /-- 0x0E `ASL a` (R290) -/
  | aslAbs (a : Word)
  /-- 0x1E `ASL a,X` (R290) -/
  | aslAbsx (a : Word)
  /-- 0x4A `LSR A` (R291) -/
  | lsrAcc
  /-- 0x46 `LSR z` (R291) -/
  | lsrZp (z : Byte)
  /-- 0x56 `LSR z,X` (R291) -/
  | lsrZpx (z : Byte)
  /-- 0x4E `LSR a` (R291) -/
  | lsrAbs (a : Word)
  /-- 0x5E `LSR a,X` (R291) -/
  | lsrAbsx (a : Word)
  /-- 0x2A `ROL A` (R292) -/
  | rolAcc
  /-- 0x26 `ROL z` (R292) -/
  | rolZp (z : Byte)
  /-- 0x36 `ROL z,X` (R292) -/
  | rolZpx (z : Byte)
  /-- 0x2E `ROL a` (R292) -/
  | rolAbs (a : Word)
  /-- 0x3E `ROL a,X` (R292) -/
  | rolAbsx (a : Word)
  /-- 0x6A `ROR A` (R293) -/
  | rorAcc
  /-- 0x66 `ROR z` (R293) -/
  | rorZp (z : Byte)
  /-- 0x76 `ROR z,X` (R293) -/
  | rorZpx (z : Byte)
  /-- 0x6E `ROR a` (R293) -/
  | rorAbs (a : Word)
  /-- 0x7E `ROR a,X` (R293) -/
  | rorAbsx (a : Word)
  -- Stack instructions (R313 to R316)
  /-- 0x48 `PHA` (R313) -/
  | pha
  /-- 0x08 `PHP` (R314) -/
  | php
  /-- 0x68 `PLA` (R315) -/
  | pla
  /-- 0x28 `PLP` (R316) -/
  | plp
  -- Control transfer, BRK and NOP (R331 to R344)
  /-- 0x90 `BCC d` (R331) -/
  | bcc (d : Byte)
  /-- 0xB0 `BCS d` (R332) -/
  | bcs (d : Byte)
  /-- 0xF0 `BEQ d` (R333) -/
  | beq (d : Byte)
  /-- 0x30 `BMI d` (R334) -/
  | bmi (d : Byte)
  /-- 0xD0 `BNE d` (R335) -/
  | bne (d : Byte)
  /-- 0x10 `BPL d` (R336) -/
  | bpl (d : Byte)
  /-- 0x50 `BVC d` (R337) -/
  | bvc (d : Byte)
  /-- 0x70 `BVS d` (R338) -/
  | bvs (d : Byte)
  /-- 0x4C `JMP a` (R339) -/
  | jmpAbs (a : Word)
  /-- 0x6C `JMP (a)` (R339) -/
  | jmpInd (a : Word)
  /-- 0x20 `JSR a` (R340) -/
  | jsr (a : Word)
  /-- 0x60 `RTS` (R341) -/
  | rts
  /-- 0x40 `RTI` (R342) -/
  | rti
  /-- 0x00 `BRK` (R343) -/
  | brk
  /-- 0xEA `NOP` (R344) -/
  | nop
  deriving DecidableEq, Repr

end Sys2Proof
end

