-- ==== Sys2Proof/Decode.lean ====
section
/-! DEFINITION. The opcode map (R83 to R86), the decoder, total on any bytes and rejecting by name, and
the encoder, written from the per-mnemonic list of R84. -/

namespace Sys2Proof

/-! ## The opcode map -/

/-- One entry of the opcode map: no instruction (R85), or an instruction of format F0, F1 or F2, given
as what makes it from its raw operand (R80, R82). -/
inductive OpEntry where
  | noInstr
  | f0 (i : Instr)
  | f1 (make : Byte → Instr)
  | f2 (make : Word → Instr)

open OpEntry

/-- Opcodes 0x00 to 0x0F, one entry per low nibble (R84). -/
def opcodeRow0 : List OpEntry :=
  [f0 .brk, f1 .oraIndx, .noInstr, .noInstr,
   .noInstr, f1 .oraZp, f1 .aslZp, .noInstr,
   f0 .php, f1 .oraImm, f0 .aslAcc, .noInstr,
   .noInstr, f2 .oraAbs, f2 .aslAbs, .noInstr]

/-- Opcodes 0x10 to 0x1F, one entry per low nibble (R84). -/
def opcodeRow1 : List OpEntry :=
  [f1 .bpl, f1 .oraIndy, .noInstr, .noInstr,
   .noInstr, f1 .oraZpx, f1 .aslZpx, .noInstr,
   f0 .clc, f2 .oraAbsy, .noInstr, .noInstr,
   .noInstr, f2 .oraAbsx, f2 .aslAbsx, .noInstr]

/-- Opcodes 0x20 to 0x2F, one entry per low nibble (R84). -/
def opcodeRow2 : List OpEntry :=
  [f2 .jsr, f1 .andIndx, .noInstr, .noInstr,
   f1 .bitZp, f1 .andZp, f1 .rolZp, .noInstr,
   f0 .plp, f1 .andImm, f0 .rolAcc, .noInstr,
   f2 .bitAbs, f2 .andAbs, f2 .rolAbs, .noInstr]

/-- Opcodes 0x30 to 0x3F, one entry per low nibble (R84). -/
def opcodeRow3 : List OpEntry :=
  [f1 .bmi, f1 .andIndy, .noInstr, .noInstr,
   .noInstr, f1 .andZpx, f1 .rolZpx, .noInstr,
   f0 .sec, f2 .andAbsy, .noInstr, .noInstr,
   .noInstr, f2 .andAbsx, f2 .rolAbsx, .noInstr]

/-- Opcodes 0x40 to 0x4F, one entry per low nibble (R84). -/
def opcodeRow4 : List OpEntry :=
  [f0 .rti, f1 .eorIndx, .noInstr, .noInstr,
   .noInstr, f1 .eorZp, f1 .lsrZp, .noInstr,
   f0 .pha, f1 .eorImm, f0 .lsrAcc, .noInstr,
   f2 .jmpAbs, f2 .eorAbs, f2 .lsrAbs, .noInstr]

/-- Opcodes 0x50 to 0x5F, one entry per low nibble (R84). -/
def opcodeRow5 : List OpEntry :=
  [f1 .bvc, f1 .eorIndy, .noInstr, .noInstr,
   .noInstr, f1 .eorZpx, f1 .lsrZpx, .noInstr,
   f0 .cli, f2 .eorAbsy, .noInstr, .noInstr,
   .noInstr, f2 .eorAbsx, f2 .lsrAbsx, .noInstr]

/-- Opcodes 0x60 to 0x6F, one entry per low nibble (R84). -/
def opcodeRow6 : List OpEntry :=
  [f0 .rts, f1 .adcIndx, .noInstr, .noInstr,
   .noInstr, f1 .adcZp, f1 .rorZp, .noInstr,
   f0 .pla, f1 .adcImm, f0 .rorAcc, .noInstr,
   f2 .jmpInd, f2 .adcAbs, f2 .rorAbs, .noInstr]

/-- Opcodes 0x70 to 0x7F, one entry per low nibble (R84). -/
def opcodeRow7 : List OpEntry :=
  [f1 .bvs, f1 .adcIndy, .noInstr, .noInstr,
   .noInstr, f1 .adcZpx, f1 .rorZpx, .noInstr,
   f0 .sei, f2 .adcAbsy, .noInstr, .noInstr,
   .noInstr, f2 .adcAbsx, f2 .rorAbsx, .noInstr]

/-- Opcodes 0x80 to 0x8F, one entry per low nibble (R84). -/
def opcodeRow8 : List OpEntry :=
  [.noInstr, f1 .staIndx, .noInstr, .noInstr,
   f1 .styZp, f1 .staZp, f1 .stxZp, .noInstr,
   f0 .dey, .noInstr, f0 .txa, .noInstr,
   f2 .styAbs, f2 .staAbs, f2 .stxAbs, .noInstr]

/-- Opcodes 0x90 to 0x9F, one entry per low nibble (R84). -/
def opcodeRow9 : List OpEntry :=
  [f1 .bcc, f1 .staIndy, .noInstr, .noInstr,
   f1 .styZpx, f1 .staZpx, f1 .stxZpy, .noInstr,
   f0 .tya, f2 .staAbsy, f0 .txs, .noInstr,
   .noInstr, f2 .staAbsx, .noInstr, .noInstr]

/-- Opcodes 0xA0 to 0xAF, one entry per low nibble (R84). -/
def opcodeRowA : List OpEntry :=
  [f1 .ldyImm, f1 .ldaIndx, f1 .ldxImm, .noInstr,
   f1 .ldyZp, f1 .ldaZp, f1 .ldxZp, .noInstr,
   f0 .tay, f1 .ldaImm, f0 .tax, .noInstr,
   f2 .ldyAbs, f2 .ldaAbs, f2 .ldxAbs, .noInstr]

/-- Opcodes 0xB0 to 0xBF, one entry per low nibble (R84). -/
def opcodeRowB : List OpEntry :=
  [f1 .bcs, f1 .ldaIndy, .noInstr, .noInstr,
   f1 .ldyZpx, f1 .ldaZpx, f1 .ldxZpy, .noInstr,
   f0 .clv, f2 .ldaAbsy, f0 .tsx, .noInstr,
   f2 .ldyAbsx, f2 .ldaAbsx, f2 .ldxAbsy, .noInstr]

/-- Opcodes 0xC0 to 0xCF, one entry per low nibble (R84). -/
def opcodeRowC : List OpEntry :=
  [f1 .cpyImm, f1 .cmpIndx, .noInstr, .noInstr,
   f1 .cpyZp, f1 .cmpZp, f1 .decZp, .noInstr,
   f0 .iny, f1 .cmpImm, f0 .dex, .noInstr,
   f2 .cpyAbs, f2 .cmpAbs, f2 .decAbs, .noInstr]

/-- Opcodes 0xD0 to 0xDF, one entry per low nibble (R84). -/
def opcodeRowD : List OpEntry :=
  [f1 .bne, f1 .cmpIndy, .noInstr, .noInstr,
   .noInstr, f1 .cmpZpx, f1 .decZpx, .noInstr,
   f0 .cld, f2 .cmpAbsy, .noInstr, .noInstr,
   .noInstr, f2 .cmpAbsx, f2 .decAbsx, .noInstr]

/-- Opcodes 0xE0 to 0xEF, one entry per low nibble (R84). -/
def opcodeRowE : List OpEntry :=
  [f1 .cpxImm, f1 .sbcIndx, .noInstr, .noInstr,
   f1 .cpxZp, f1 .sbcZp, f1 .incZp, .noInstr,
   f0 .inx, f1 .sbcImm, f0 .nop, .noInstr,
   f2 .cpxAbs, f2 .sbcAbs, f2 .incAbs, .noInstr]

/-- Opcodes 0xF0 to 0xFF, one entry per low nibble (R84). -/
def opcodeRowF : List OpEntry :=
  [f1 .beq, f1 .sbcIndy, .noInstr, .noInstr,
   .noInstr, f1 .sbcZpx, f1 .incZpx, .noInstr,
   f0 .sed, f2 .sbcAbsy, .noInstr, .noInstr,
   .noInstr, f2 .sbcAbsx, f2 .incAbsx, .noInstr]

/-- The 16 rows of the map, by high nibble. -/
def opcodeMap : List (List OpEntry) :=
  [opcodeRow0, opcodeRow1, opcodeRow2, opcodeRow3, opcodeRow4, opcodeRow5, opcodeRow6, opcodeRow7] ++
  [opcodeRow8, opcodeRow9, opcodeRowA, opcodeRowB, opcodeRowC, opcodeRowD, opcodeRowE, opcodeRowF]

/-- `OPCODE_TABLE` of R112: the entry of an opcode byte, row = high nibble, column = low nibble (R84). -/
def opcodeEntry (opc : Byte) : OpEntry :=
  ((opcodeMap.getD (opc.toNat / 16) []).getD (opc.toNat % 16) .noInstr)

/-- Is the opcode byte one of the 151 of the table (R86)? -/
def isDocumented (opc : Byte) : Bool :=
  match opcodeEntry opc with
  | .noInstr => false
  | .f0 _ | .f1 _ | .f2 _ => true

/-- The entry of an opcode byte in an engine: the table's, if the byte is wired in (R111, R115). -/
def wiredEntry (c : Config) (opc : Byte) : OpEntry :=
  if opc ∈ c.implemented then opcodeEntry opc else .noInstr

/-- Is the opcode byte in the table and in IMPLEMENTED (R115)? -/
def isWired (c : Config) (opc : Byte) : Bool :=
  isDocumented opc && decide (opc ∈ c.implemented)

/-- The 151 opcode bytes of the table, rising: the default of IMPLEMENTED (R9). -/
def documentedOpcodes : List Byte :=
  [0x00, 0x01, 0x05, 0x06, 0x08, 0x09, 0x0A, 0x0D, 0x0E] ++
  [0x10, 0x11, 0x15, 0x16, 0x18, 0x19, 0x1D, 0x1E] ++
  [0x20, 0x21, 0x24, 0x25, 0x26, 0x28, 0x29, 0x2A, 0x2C, 0x2D, 0x2E] ++
  [0x30, 0x31, 0x35, 0x36, 0x38, 0x39, 0x3D, 0x3E] ++
  [0x40, 0x41, 0x45, 0x46, 0x48, 0x49, 0x4A, 0x4C, 0x4D, 0x4E] ++
  [0x50, 0x51, 0x55, 0x56, 0x58, 0x59, 0x5D, 0x5E] ++
  [0x60, 0x61, 0x65, 0x66, 0x68, 0x69, 0x6A, 0x6C, 0x6D, 0x6E] ++
  [0x70, 0x71, 0x75, 0x76, 0x78, 0x79, 0x7D, 0x7E] ++
  [0x81, 0x84, 0x85, 0x86, 0x88, 0x8A, 0x8C, 0x8D, 0x8E] ++
  [0x90, 0x91, 0x94, 0x95, 0x96, 0x98, 0x99, 0x9A, 0x9D] ++
  [0xA0, 0xA1, 0xA2, 0xA4, 0xA5, 0xA6, 0xA8, 0xA9, 0xAA, 0xAC, 0xAD, 0xAE] ++
  [0xB0, 0xB1, 0xB4, 0xB5, 0xB6, 0xB8, 0xB9, 0xBA, 0xBC, 0xBD, 0xBE] ++
  [0xC0, 0xC1, 0xC4, 0xC5, 0xC6, 0xC8, 0xC9, 0xCA, 0xCC, 0xCD, 0xCE] ++
  [0xD0, 0xD1, 0xD5, 0xD6, 0xD8, 0xD9, 0xDD, 0xDE] ++
  [0xE0, 0xE1, 0xE4, 0xE5, 0xE6, 0xE8, 0xE9, 0xEA, 0xEC, 0xED, 0xEE] ++
  [0xF0, 0xF1, 0xF5, 0xF6, 0xF8, 0xF9, 0xFD, 0xFE]

/-- The default parameters of R9: `ascending`, all 151 opcodes. -/
def Config.standard : Config :=
  { layout := .ascending, implemented := documentedOpcodes }

/-! ## The decoder -/

/-- Why bytes are not an instruction. -/
inductive DecodeError where
  /-- there is no opcode byte -/
  | noBytes
  /-- the opcode byte is one of the 105 of R85: `Unimplemented` (R86) -/
  | unimplemented (opcode : Byte)
  /-- the bytes end before the operand does -/
  | truncated (opcode : Byte)
  deriving DecidableEq, Repr

/-- Decode the instruction at the head of a list of bytes, lowest address first, and give the bytes
after it (R80, R82, R86). -/
def decode : List Byte → Except DecodeError (Instr × List Byte)
  | [] => .error .noBytes
  | opc :: rest =>
    match opcodeEntry opc with
    | .noInstr => .error (.unimplemented opc)
    | .f0 i => .ok (i, rest)
    | .f1 make =>
      match rest with
      | op8 :: rest => .ok (make op8, rest)
      | [] => .error (.truncated opc)
    | .f2 make =>
      match rest with
      | lo :: hi :: rest => .ok (make (wordOf hi lo), rest)
      | _ => .error (.truncated opc)

/-- Byte `k` of an instruction whose bits are `w`, bit 0 the least significant of the first byte;
bits from `nbits` up are 0. -/
def tableByte (nbits w k : Nat) : Byte :=
  BitVec.ofNat 8 (w % 2 ^ nbits / 2 ^ (8 * k))

/-- The instruction the decoder reads from a word of spec/opcode_table.json. -/
def decodeTableWord (nbits w : Nat) : Option Instr :=
  match decode [tableByte nbits w 0, tableByte nbits w 1, tableByte nbits w 2] with
  | .ok (i, _) => some i
  | .error _ => none

/-! ## The encoder -/

/-- What R84's per-mnemonic list says of an instruction: its opcode byte, mnemonic, and mode with
raw operand. -/
structure Encoding where
  opcode : Byte
  mnemonic : Mnemonic
  operand : Operand
  deriving DecidableEq, Repr

/-- The per-mnemonic list of R84. -/
def Instr.encoding : Instr → Encoding
  | .clc => ⟨0x18, .clc, .imp⟩
  | .sec => ⟨0x38, .sec, .imp⟩
  | .cli => ⟨0x58, .cli, .imp⟩
  | .sei => ⟨0x78, .sei, .imp⟩
  | .cld => ⟨0xD8, .cld, .imp⟩
  | .sed => ⟨0xF8, .sed, .imp⟩
  | .clv => ⟨0xB8, .clv, .imp⟩
  | .ldaImm v => ⟨0xA9, .lda, .imm v⟩
  | .ldaZp z => ⟨0xA5, .lda, .zp z⟩
  | .ldaZpx z => ⟨0xB5, .lda, .zpx z⟩
  | .ldaAbs a => ⟨0xAD, .lda, .abs a⟩
  | .ldaAbsx a => ⟨0xBD, .lda, .absx a⟩
  | .ldaAbsy a => ⟨0xB9, .lda, .absy a⟩
  | .ldaIndx z => ⟨0xA1, .lda, .indx z⟩
  | .ldaIndy z => ⟨0xB1, .lda, .indy z⟩
  | .ldxImm v => ⟨0xA2, .ldx, .imm v⟩
  | .ldxZp z => ⟨0xA6, .ldx, .zp z⟩
  | .ldxZpy z => ⟨0xB6, .ldx, .zpy z⟩
  | .ldxAbs a => ⟨0xAE, .ldx, .abs a⟩
  | .ldxAbsy a => ⟨0xBE, .ldx, .absy a⟩
  | .ldyImm v => ⟨0xA0, .ldy, .imm v⟩
  | .ldyZp z => ⟨0xA4, .ldy, .zp z⟩
  | .ldyZpx z => ⟨0xB4, .ldy, .zpx z⟩
  | .ldyAbs a => ⟨0xAC, .ldy, .abs a⟩
  | .ldyAbsx a => ⟨0xBC, .ldy, .absx a⟩
  | .staZp z => ⟨0x85, .sta, .zp z⟩
  | .staZpx z => ⟨0x95, .sta, .zpx z⟩
  | .staAbs a => ⟨0x8D, .sta, .abs a⟩
  | .staAbsx a => ⟨0x9D, .sta, .absx a⟩
  | .staAbsy a => ⟨0x99, .sta, .absy a⟩
  | .staIndx z => ⟨0x81, .sta, .indx z⟩
  | .staIndy z => ⟨0x91, .sta, .indy z⟩
  | .stxZp z => ⟨0x86, .stx, .zp z⟩
  | .stxZpy z => ⟨0x96, .stx, .zpy z⟩
  | .stxAbs a => ⟨0x8E, .stx, .abs a⟩
  | .styZp z => ⟨0x84, .sty, .zp z⟩
  | .styZpx z => ⟨0x94, .sty, .zpx z⟩
  | .styAbs a => ⟨0x8C, .sty, .abs a⟩
  | .tax => ⟨0xAA, .tax, .imp⟩
  | .tay => ⟨0xA8, .tay, .imp⟩
  | .txa => ⟨0x8A, .txa, .imp⟩
  | .tya => ⟨0x98, .tya, .imp⟩
  | .tsx => ⟨0xBA, .tsx, .imp⟩
  | .txs => ⟨0x9A, .txs, .imp⟩
  | .incZp z => ⟨0xE6, .inc, .zp z⟩
  | .incZpx z => ⟨0xF6, .inc, .zpx z⟩
  | .incAbs a => ⟨0xEE, .inc, .abs a⟩
  | .incAbsx a => ⟨0xFE, .inc, .absx a⟩
  | .decZp z => ⟨0xC6, .dec, .zp z⟩
  | .decZpx z => ⟨0xD6, .dec, .zpx z⟩
  | .decAbs a => ⟨0xCE, .dec, .abs a⟩
  | .decAbsx a => ⟨0xDE, .dec, .absx a⟩
  | .inx => ⟨0xE8, .inx, .imp⟩
  | .iny => ⟨0xC8, .iny, .imp⟩
  | .dex => ⟨0xCA, .dex, .imp⟩
  | .dey => ⟨0x88, .dey, .imp⟩
  | .adcImm v => ⟨0x69, .adc, .imm v⟩
  | .adcZp z => ⟨0x65, .adc, .zp z⟩
  | .adcZpx z => ⟨0x75, .adc, .zpx z⟩
  | .adcAbs a => ⟨0x6D, .adc, .abs a⟩
  | .adcAbsx a => ⟨0x7D, .adc, .absx a⟩
  | .adcAbsy a => ⟨0x79, .adc, .absy a⟩
  | .adcIndx z => ⟨0x61, .adc, .indx z⟩
  | .adcIndy z => ⟨0x71, .adc, .indy z⟩
  | .sbcImm v => ⟨0xE9, .sbc, .imm v⟩
  | .sbcZp z => ⟨0xE5, .sbc, .zp z⟩
  | .sbcZpx z => ⟨0xF5, .sbc, .zpx z⟩
  | .sbcAbs a => ⟨0xED, .sbc, .abs a⟩
  | .sbcAbsx a => ⟨0xFD, .sbc, .absx a⟩
  | .sbcAbsy a => ⟨0xF9, .sbc, .absy a⟩
  | .sbcIndx z => ⟨0xE1, .sbc, .indx z⟩
  | .sbcIndy z => ⟨0xF1, .sbc, .indy z⟩
  | .cmpImm v => ⟨0xC9, .cmp, .imm v⟩
  | .cmpZp z => ⟨0xC5, .cmp, .zp z⟩
  | .cmpZpx z => ⟨0xD5, .cmp, .zpx z⟩
  | .cmpAbs a => ⟨0xCD, .cmp, .abs a⟩
  | .cmpAbsx a => ⟨0xDD, .cmp, .absx a⟩
  | .cmpAbsy a => ⟨0xD9, .cmp, .absy a⟩
  | .cmpIndx z => ⟨0xC1, .cmp, .indx z⟩
  | .cmpIndy z => ⟨0xD1, .cmp, .indy z⟩
  | .cpxImm v => ⟨0xE0, .cpx, .imm v⟩
  | .cpxZp z => ⟨0xE4, .cpx, .zp z⟩
  | .cpxAbs a => ⟨0xEC, .cpx, .abs a⟩
  | .cpyImm v => ⟨0xC0, .cpy, .imm v⟩
  | .cpyZp z => ⟨0xC4, .cpy, .zp z⟩
  | .cpyAbs a => ⟨0xCC, .cpy, .abs a⟩
  | .andImm v => ⟨0x29, .and, .imm v⟩
  | .andZp z => ⟨0x25, .and, .zp z⟩
  | .andZpx z => ⟨0x35, .and, .zpx z⟩
  | .andAbs a => ⟨0x2D, .and, .abs a⟩
  | .andAbsx a => ⟨0x3D, .and, .absx a⟩
  | .andAbsy a => ⟨0x39, .and, .absy a⟩
  | .andIndx z => ⟨0x21, .and, .indx z⟩
  | .andIndy z => ⟨0x31, .and, .indy z⟩
  | .oraImm v => ⟨0x09, .ora, .imm v⟩
  | .oraZp z => ⟨0x05, .ora, .zp z⟩
  | .oraZpx z => ⟨0x15, .ora, .zpx z⟩
  | .oraAbs a => ⟨0x0D, .ora, .abs a⟩
  | .oraAbsx a => ⟨0x1D, .ora, .absx a⟩
  | .oraAbsy a => ⟨0x19, .ora, .absy a⟩
  | .oraIndx z => ⟨0x01, .ora, .indx z⟩
  | .oraIndy z => ⟨0x11, .ora, .indy z⟩
  | .eorImm v => ⟨0x49, .eor, .imm v⟩
  | .eorZp z => ⟨0x45, .eor, .zp z⟩
  | .eorZpx z => ⟨0x55, .eor, .zpx z⟩
  | .eorAbs a => ⟨0x4D, .eor, .abs a⟩
  | .eorAbsx a => ⟨0x5D, .eor, .absx a⟩
  | .eorAbsy a => ⟨0x59, .eor, .absy a⟩
  | .eorIndx z => ⟨0x41, .eor, .indx z⟩
  | .eorIndy z => ⟨0x51, .eor, .indy z⟩
  | .bitZp z => ⟨0x24, .bit, .zp z⟩
  | .bitAbs a => ⟨0x2C, .bit, .abs a⟩
  | .aslAcc => ⟨0x0A, .asl, .acc⟩
  | .aslZp z => ⟨0x06, .asl, .zp z⟩
  | .aslZpx z => ⟨0x16, .asl, .zpx z⟩
  | .aslAbs a => ⟨0x0E, .asl, .abs a⟩
  | .aslAbsx a => ⟨0x1E, .asl, .absx a⟩
  | .lsrAcc => ⟨0x4A, .lsr, .acc⟩
  | .lsrZp z => ⟨0x46, .lsr, .zp z⟩
  | .lsrZpx z => ⟨0x56, .lsr, .zpx z⟩
  | .lsrAbs a => ⟨0x4E, .lsr, .abs a⟩
  | .lsrAbsx a => ⟨0x5E, .lsr, .absx a⟩
  | .rolAcc => ⟨0x2A, .rol, .acc⟩
  | .rolZp z => ⟨0x26, .rol, .zp z⟩
  | .rolZpx z => ⟨0x36, .rol, .zpx z⟩
  | .rolAbs a => ⟨0x2E, .rol, .abs a⟩
  | .rolAbsx a => ⟨0x3E, .rol, .absx a⟩
  | .rorAcc => ⟨0x6A, .ror, .acc⟩
  | .rorZp z => ⟨0x66, .ror, .zp z⟩
  | .rorZpx z => ⟨0x76, .ror, .zpx z⟩
  | .rorAbs a => ⟨0x6E, .ror, .abs a⟩
  | .rorAbsx a => ⟨0x7E, .ror, .absx a⟩
  | .pha => ⟨0x48, .pha, .imp⟩
  | .php => ⟨0x08, .php, .imp⟩
  | .pla => ⟨0x68, .pla, .imp⟩
  | .plp => ⟨0x28, .plp, .imp⟩
  | .bcc d => ⟨0x90, .bcc, .rel d⟩
  | .bcs d => ⟨0xB0, .bcs, .rel d⟩
  | .beq d => ⟨0xF0, .beq, .rel d⟩
  | .bmi d => ⟨0x30, .bmi, .rel d⟩
  | .bne d => ⟨0xD0, .bne, .rel d⟩
  | .bpl d => ⟨0x10, .bpl, .rel d⟩
  | .bvc d => ⟨0x50, .bvc, .rel d⟩
  | .bvs d => ⟨0x70, .bvs, .rel d⟩
  | .jmpAbs a => ⟨0x4C, .jmp, .abs a⟩
  | .jmpInd a => ⟨0x6C, .jmp, .ind a⟩
  | .jsr a => ⟨0x20, .jsr, .abs a⟩
  | .rts => ⟨0x60, .rts, .imp⟩
  | .rti => ⟨0x40, .rti, .imp⟩
  | .brk => ⟨0x00, .brk, .imp⟩
  | .nop => ⟨0xEA, .nop, .imp⟩

/-- The opcode byte (R84). -/
def Instr.opcode (i : Instr) : Byte := i.encoding.opcode

/-- The mnemonic (R84, R112). -/
def Instr.mnemonic (i : Instr) : Mnemonic := i.encoding.mnemonic

/-- The addressing mode with the raw operand. -/
def Instr.operand (i : Instr) : Operand := i.encoding.operand

/-- The addressing mode (R84, R112). -/
def Instr.mode (i : Instr) : Mode := i.operand.mode

/-- The length in bytes: 1, 2 or 3 (R80, R81). -/
def Instr.length (i : Instr) : Nat := 1 + i.mode.operandBytes

/-- The bytes of an instruction, lowest address first (R80, R82). -/
def encode (i : Instr) : List Byte := i.opcode :: i.operand.bytes

end Sys2Proof
end

