-- ==== Sys2Proof/Machine/Memory.lean ====
section
/-! DEFINITION. The memory store (R50, R51, R62): 65536 bytes, held as the list of the bytes that are not
0x00, addresses strictly rising. What an unlisted address reads as is `Memory.unlisted`. -/

namespace Sys2Proof.Machine

/-- A memory image: (address, byte) pairs in the canonical form of `Memory.wf`. -/
abbrev Memory := List Host.Cell

/-- What an unlisted address reads as. DESIGN CHOICE (log 3, unsafe): the spec leaves the image to the
host (R444) and gives a byte outside it no value. -/
def Memory.unlisted : Byte := 0x00

/-- Every key of `m` is at least `lo` and below 65536, the keys rise strictly, and no byte equals
`Memory.unlisted`. -/
def Memory.wfFrom : Nat → Memory → Bool
  | _, [] => true
  | lo, (k, v) :: m =>
    decide (lo ≤ k) && decide (k < 65536) && decide (v ≠ Memory.unlisted) && Memory.wfFrom (k + 1) m

/-- The canonical form: equal memories are equal lists. -/
def Memory.wf (m : Memory) : Bool := Memory.wfFrom 0 m

/-- The byte at address `a`: the port's `read` (R62). -/
def Memory.read : Memory → Nat → Byte
  | [], _ => Memory.unlisted
  | (k, v) :: m, a => if k = a then v else Memory.read m a

/-- Put byte `v` at address `a`: the port's `write` (R62), keeping the canonical form. -/
def Memory.write : Memory → Nat → Byte → Memory
  | [], a, v => if v = Memory.unlisted then [] else [(a, v)]
  | (k, w) :: m, a, v =>
    if k < a then (k, w) :: Memory.write m a v
    else if k = a then (if v = Memory.unlisted then m else (a, v) :: m)
    else (if v = Memory.unlisted then (k, w) :: m else (a, v) :: (k, w) :: m)

end Sys2Proof.Machine
end

