-- ==== Sys2Proof/Machine/State.lean ====
section
/-! DEFINITION. The state of the machine: the register file (R20), the engine state (R32), memory (R50)
and the parameters of the engine (R9); the reasons a step could stop; the state after reset (R34). -/

namespace Sys2Proof.Machine

/-- The two fault causes (R400). -/
inductive FaultCause where
  /-- the opcode byte is not in the table or not wired in (R401) -/
  | unimplementedOpcode
  /-- `Resolve` was asked for a mode without an effective address (R402) -/
  | addressingError
  deriving DecidableEq, Repr

/-- `engineState` (R32). -/
inductive EngineState where
  | running
  | halted
  /-- the cause, the opcode byte that was executing, and the address it was fetched from -/
  | faulted (cause : FaultCause) (opcode : Byte) (address : Word)
  deriving DecidableEq, Repr

/-- The state. `p` is the whole flag byte, laid out as `cfg.layout` says (R27, R28). -/
structure State where
  pc : Word
  sp : Byte
  a : Byte
  x : Byte
  y : Byte
  p : Byte
  engine : EngineState
  mem : Memory
  cfg : Config
  deriving DecidableEq, Repr

/-- Reasons for a step to end without a next state. There is none: the engine's own faults (R400) are
next states whose `engine` is `.faulted` (log 5), wrap-around is no fault (R26), and every address is
backed (R51). No constructor, so no step can raise one. -/
inductive Fault where
  deriving DecidableEq, Repr

/-- Reasons for a step to be refused. -/
inductive Refusal where
  /-- An instruction without a meaning, by its mnemonic. Raised by an arm of `exec` still to be
  modelled; no arm raises it now. Safe: the run stops where the hardware goes on. -/
  | notModelled (mnemonic : String)
  deriving DecidableEq, Repr

/-- The outcome of a step or of an execute phase. -/
abbrev Result := Host.Outcome State Fault Refusal

/-- The machine right after reset (R34), with nothing listed in memory (log 3) and the default
parameters of R9: PC is the little-endian word at 0xFFFC, here 0x0000; P is Unused and Decimal,
0x28 in the `ascending` layout. The obligation `ResetIsHostReset` says that R440's sequence gives this
state. -/
def State.reset : State :=
  { pc := 0x0000
    sp := 0x00
    a := 0x00
    x := 0x00
    y := 0x00
    p := 0x28
    engine := .running
    mem := []
    cfg := Config.standard }

end Sys2Proof.Machine
end

