-- ==== Sys2Proof/Machine/Flags.lean ====
section
/-! DEFINITION. The Flag Unit (R140 to R143): every change to P goes through `setFlag` and `clearFlag`
(R30). -/

namespace Sys2Proof.Machine

/-- The bit position of a flag in P (R28). -/
def flagBit : FlagLayout → Flag → Nat
  | .ascending, .c => 0
  | .ascending, .z => 1
  | .ascending, .i => 2
  | .ascending, .d => 3
  | .ascending, .b => 4
  | .ascending, .u => 5
  | .ascending, .v => 6
  | .ascending, .n => 7
  | .literal, .c => 7
  | .literal, .z => 6
  | .literal, .i => 5
  | .literal, .d => 4
  | .literal, .b => 3
  | .literal, .u => 2
  | .literal, .v => 1
  | .literal, .n => 0

/-- `mask(f)`: the byte with the flag's bit alone (R28, R140). -/
def flagMask (l : FlagLayout) (f : Flag) : Byte := 1#8 <<< flagBit l f

/-- Does the byte `v`, laid out by `l`, have flag `f` set: `(v & mask(f)) != 0` (R317)? -/
def flagOf (l : FlagLayout) (f : Flag) (v : Byte) : Bool := (v &&& flagMask l f) != 0#8

/-- `P.f` (R11). -/
def State.flag (s : State) (f : Flag) : Bool := flagOf s.cfg.layout f s.p

/-- `setFlag(f)` (R140). -/
def State.setFlag (s : State) (f : Flag) : State :=
  { s with p := s.p ||| flagMask s.cfg.layout f ||| flagMask s.cfg.layout .u }

/-- `clearFlag(f)` (R140). -/
def State.clearFlag (s : State) (f : Flag) : State :=
  { s with p := s.p &&& ~~~ flagMask s.cfg.layout f ||| flagMask s.cfg.layout .u }

/-- `writeFlag(f, c)` (R140). -/
def State.writeFlag (s : State) (f : Flag) (c : Bool) : State :=
  if c then s.setFlag f else s.clearFlag f

/-- Bit 7 of a byte: what `updateNegative` tests and returns (R141). -/
def negativeBit (v : Byte) : Bool := v.getLsbD 7

/-- `updateNegative(v)` (R141). The bit it returns is `negativeBit v`; no rule uses it. -/
def State.updateNegative (s : State) (v : Byte) : State := s.writeFlag .n (negativeBit v)

/-- `updateZero(v)` (R142). -/
def State.updateZero (s : State) (v : Byte) : State := s.writeFlag .z (v == 0x00#8)

/-- The overflow rule, "((a XOR result) & 0x80) != 0 AND ((b XOR result) & 0x80) != 0" (R143). -/
def overflowBit (a b r : Byte) : Bool :=
  ((a ^^^ r) &&& 0x80#8) != 0#8 && ((b ^^^ r) &&& 0x80#8) != 0#8

/-- `updateOverflow(a, b, r)` (R143). -/
def State.updateOverflow (s : State) (a b r : Byte) : State := s.writeFlag .v (overflowBit a b r)

/-- `updateNegative(v); updateZero(v)`, the pair that R144's instructions call on their result. -/
def State.updateNZ (s : State) (v : Byte) : State := (s.updateNegative v).updateZero v

/-- `LoadStatus(v)` (R317): C, Z, I, D, V, N from the byte, in that order; B and U are not loaded. -/
def State.loadStatus (s : State) (v : Byte) : State :=
  let l := s.cfg.layout
  (((((s.writeFlag .c (flagOf l .c v)).writeFlag .z (flagOf l .z v)).writeFlag .i (flagOf l .i v)).writeFlag
    .d (flagOf l .d v)).writeFlag .v (flagOf l .v v)).writeFlag .n (flagOf l .n v)

/-- The byte PHP pushes: `P | mask(B) | mask(U)` (R314). -/
def State.pushedStatus (s : State) : Byte :=
  s.p ||| flagMask s.cfg.layout .b ||| flagMask s.cfg.layout .u

/-- The host's flag-byte accessor: P as one byte, with U = 1 (R33). -/
def State.flagByte (s : State) : Byte := s.p ||| flagMask s.cfg.layout .u

end Sys2Proof.Machine
end

