-- ==== Sys2Proof/Machine/Ops.lean ====
section
/-! DEFINITION. The named operations over memory, the stack and the engine state: the memory port and its
two-byte reads (R53, R54, R62), push and pull (R310 to R312), fault entry (R401 to R403), the halt
(R343) and reset (R440). -/

namespace Sys2Proof.Machine

/-- `zext_16(v)` (R11). -/
def zext16 (v : Byte) : Word := v.setWidth 16

/-- `sext_16(v)` (R11). -/
def sext16 (v : Byte) : Word := v.signExtend 16

/-! ## The memory port -/

/-- `MemRead(a, 1)` (R11, R62). -/
def State.memRead (s : State) (a : Word) : Byte := s.mem.read a.toNat

/-- `MemWrite(a, 1, v)` (R11, R62). -/
def State.memWrite (s : State) (a : Word) (v : Byte) : State :=
  { s with mem := s.mem.write a.toNat v }

/-- `MemRead16(a)`: low byte at `a`, high byte at `(a + 1) mod 65536` (R53). -/
def State.memRead16 (s : State) (a : Word) : Word :=
  wordOf (s.memRead (a + 1)) (s.memRead a)

/-- `MemReadZP16(z)`: both bytes in page 0, the second at `(z + 1) mod 256` (R54). -/
def State.memReadZP16 (s : State) (z : Byte) : Word :=
  wordOf (s.memRead (zext16 (z + 1))) (s.memRead (zext16 z))

/-! ## The stack -/

/-- `StackAddr(s)`: page 0x01 at offset SP (R310). -/
def stackAddr (sp : Byte) : Word := 0x0100#16 ||| zext16 sp

/-- `Push(v)`: write, then decrement (R311). -/
def State.push (s : State) (v : Byte) : State :=
  let s := s.memWrite (stackAddr s.sp) v
  { s with sp := s.sp - 1 }

/-- `Pull()`: increment, then read (R312). The byte and the state after. -/
def State.pull (s : State) : Byte × State :=
  let s := { s with sp := s.sp + 1 }
  (s.memRead (stackAddr s.sp), s)

/-! ## Halt, fault entry, reset -/

/-- `halt` (R343). -/
def State.halt (s : State) : State := { s with engine := .halted }

/-- Fault entry, `raise cause(opc, opAddr)` (R403): the one way into Faulted. Nothing is pushed, no flag
changes, no vector is read. -/
def State.raiseFault (s : State) (cause : FaultCause) (opc : Byte) (opAddr : Word) : State :=
  { s with engine := .faulted cause opc opAddr }

/-- `AddressingError` of an instruction with opcode `opc` and operand `o`, raised in its execute phase,
where PC = opAddr + length (R402, R113; log 6). -/
def State.raiseAddressingError (s : State) (opc : Byte) (o : Operand) : State :=
  s.raiseFault .addressingError opc (s.pc - BitVec.ofNat 16 (1 + o.mode.operandBytes))

/-- `reset()` (R440), the host's one way out of Halted and Faulted (R408). -/
def State.hostReset (s : State) : State :=
  let s := { s with a := 0x00, x := 0x00, y := 0x00, sp := 0x00 }
  let s := ((((((s.clearFlag .c).clearFlag .z).clearFlag .i).clearFlag .d).clearFlag .b).clearFlag .v).clearFlag .n
  let s := (s.setFlag .u).setFlag .d
  { s with pc := s.memRead16 0xFFFC, engine := .running }

/-! ## Codes the host reads -/

/-- The numeric code of a fault cause (R120, R400). -/
def FaultCause.code : FaultCause → Nat
  | .unimplementedOpcode => 1
  | .addressingError => 2

/-- The numeric code of an engine state (R120). -/
def EngineState.code : EngineState → Nat
  | .running => 0
  | .halted => 1
  | .faulted _ _ _ => 2

end Sys2Proof.Machine
end

