-- ==== Sys2Proof/Machine/Operands.lean ====
section
/-! DEFINITION. The Address Resolver (R170 to R184), the reading operand (R185) and the read-modify-write
target (R186), with the addressing error of a form that has no effective address (R184). -/

namespace Sys2Proof.Machine

/-- `Resolve(mode, operand)` (R170): the effective address, or nothing for imp, acc and imm (R184). -/
def State.resolve (s : State) : Operand → Option Word
  | .imp | .acc | .imm _ => none
  | .zp op8 => some (zext16 op8)
  | .zpx op8 => some (zext16 (op8 + s.x))
  | .zpy op8 => some (zext16 (op8 + s.y))
  | .abs op16 => some op16
  | .absx op16 => some (op16 + zext16 s.x)
  | .absy op16 => some (op16 + zext16 s.y)
  | .ind op16 => some (s.memRead16 op16)
  | .indx op8 => some (s.memReadZP16 (op8 + s.x))
  | .indy op8 => some (s.memReadZP16 op8 + zext16 s.y)
  | .rel op8 => some (s.pc + sext16 op8)

/-- `ReadOperand(mode, operand)`, the value M (R185). -/
def State.readOperand (s : State) : Operand → Option Byte
  | .imm op8 => some op8
  | o => (s.resolve o).map s.memRead

/-- What a read-modify-write instruction reads and writes: A, or the byte at an address resolved once
(R186). -/
inductive Target where
  | acc
  | mem (ea : Word)
  deriving DecidableEq, Repr

/-- The target of an operand form (R186). -/
def State.target (s : State) : Operand → Option Target
  | .acc => some .acc
  | o => (s.resolve o).map .mem

/-- `old <- target` (R186). -/
def State.readTarget (s : State) : Target → Byte
  | .acc => s.a
  | .mem ea => s.memRead ea

/-- `target <- new` (R186). -/
def State.writeTarget (s : State) (t : Target) (v : Byte) : State :=
  match t with
  | .acc => { s with a := v }
  | .mem ea => s.memWrite ea v

/-- Run `k` on the operand value; a form without one is the addressing error (R184, R185). -/
def withOperand (opc : Byte) (o : Operand) (s : State) (k : Byte → State) : Result :=
  match s.readOperand o with
  | some m => .next (k m)
  | none => .next (s.raiseAddressingError opc o)

/-- Run `k` on the effective address; a form without one is the addressing error (R184). -/
def withAddress (opc : Byte) (o : Operand) (s : State) (k : Word → State) : Result :=
  match s.resolve o with
  | some ea => .next (k ea)
  | none => .next (s.raiseAddressingError opc o)

/-- Run `k` on the read-modify-write target; a form without one is the addressing error (R184, R186). -/
def withTarget (opc : Byte) (o : Operand) (s : State) (k : Target → State) : Result :=
  match s.target o with
  | some t => .next (k t)
  | none => .next (s.raiseAddressingError opc o)

end Sys2Proof.Machine
end

