-- ==== Sys2Proof/Machine/Arithmetic.lean ====
section
/-! DEFINITION. Arithmetic and compare (R250 to R258). -/

namespace Sys2Proof.Machine

/-- `AddWithCarry(m)`, binary whatever D holds (R250, R257): the 9-bit sum of the old A, `m` and C; V from
the old A; then C, A, N and Z. -/
def State.addWithCarry (s : State) (m : Byte) : State :=
  let a := s.a
  let sum : BitVec 9 := a.setWidth 9 + m.setWidth 9 + (BitVec.ofBool (s.flag .c)).setWidth 9
  let r : Byte := sum.setWidth 8
  let s := s.updateOverflow a m r
  let s := s.writeFlag .c (sum.getLsbD 8)
  let s := { s with a := r }
  s.updateNZ r

/-- `Compare(reg, m)`: C from the unsigned comparison, N and Z from the difference (R253). -/
def State.compare (s : State) (reg m : Byte) : State :=
  (s.writeFlag .c (decide (m ≤ reg))).updateNZ (reg - m)

/-- ADC with any operand form (R251). -/
def doAdc (opc : Byte) (o : Operand) (s : State) : Result :=
  withOperand opc o s fun m => s.addWithCarry m

/-- SBC with any operand form: the sum with the complement of M (R252, D8). -/
def doSbc (opc : Byte) (o : Operand) (s : State) : Result :=
  withOperand opc o s fun m => s.addWithCarry (m ^^^ 0xFF#8)

/-- CMP with any operand form (R254). -/
def doCmp (opc : Byte) (o : Operand) (s : State) : Result :=
  withOperand opc o s fun m => s.compare s.a m

/-- CPX with any operand form (R255). -/
def doCpx (opc : Byte) (o : Operand) (s : State) : Result :=
  withOperand opc o s fun m => s.compare s.x m

/-- CPY with any operand form (R256). -/
def doCpy (opc : Byte) (o : Operand) (s : State) : Result :=
  withOperand opc o s fun m => s.compare s.y m

/-- ADC, immediate (R251). -/
def execAdcImm (v : Byte) (s : State) : Result :=
  doAdc 0x69 (.imm v) s

/-- ADC, zero-page (R251). -/
def execAdcZp (z : Byte) (s : State) : Result :=
  doAdc 0x65 (.zp z) s

/-- ADC, zero-page-indexed-X (R251). -/
def execAdcZpx (z : Byte) (s : State) : Result :=
  doAdc 0x75 (.zpx z) s

/-- ADC, absolute (R251). -/
def execAdcAbs (a : Word) (s : State) : Result :=
  doAdc 0x6D (.abs a) s

/-- ADC, absolute-indexed-X (R251). -/
def execAdcAbsx (a : Word) (s : State) : Result :=
  doAdc 0x7D (.absx a) s

/-- ADC, absolute-indexed-Y (R251). -/
def execAdcAbsy (a : Word) (s : State) : Result :=
  doAdc 0x79 (.absy a) s

/-- ADC, zero-page-indexed-indirect-via-X (R251). -/
def execAdcIndx (z : Byte) (s : State) : Result :=
  doAdc 0x61 (.indx z) s

/-- ADC, zero-page-indirect-indexed-via-Y (R251). -/
def execAdcIndy (z : Byte) (s : State) : Result :=
  doAdc 0x71 (.indy z) s

/-- SBC, immediate (R252). -/
def execSbcImm (v : Byte) (s : State) : Result :=
  doSbc 0xE9 (.imm v) s

/-- SBC, zero-page (R252). -/
def execSbcZp (z : Byte) (s : State) : Result :=
  doSbc 0xE5 (.zp z) s

/-- SBC, zero-page-indexed-X (R252). -/
def execSbcZpx (z : Byte) (s : State) : Result :=
  doSbc 0xF5 (.zpx z) s

/-- SBC, absolute (R252). -/
def execSbcAbs (a : Word) (s : State) : Result :=
  doSbc 0xED (.abs a) s

/-- SBC, absolute-indexed-X (R252). -/
def execSbcAbsx (a : Word) (s : State) : Result :=
  doSbc 0xFD (.absx a) s

/-- SBC, absolute-indexed-Y (R252). -/
def execSbcAbsy (a : Word) (s : State) : Result :=
  doSbc 0xF9 (.absy a) s

/-- SBC, zero-page-indexed-indirect-via-X (R252). -/
def execSbcIndx (z : Byte) (s : State) : Result :=
  doSbc 0xE1 (.indx z) s

/-- SBC, zero-page-indirect-indexed-via-Y (R252). -/
def execSbcIndy (z : Byte) (s : State) : Result :=
  doSbc 0xF1 (.indy z) s

/-- CMP, immediate (R254). -/
def execCmpImm (v : Byte) (s : State) : Result :=
  doCmp 0xC9 (.imm v) s

/-- CMP, zero-page (R254). -/
def execCmpZp (z : Byte) (s : State) : Result :=
  doCmp 0xC5 (.zp z) s

/-- CMP, zero-page-indexed-X (R254). -/
def execCmpZpx (z : Byte) (s : State) : Result :=
  doCmp 0xD5 (.zpx z) s

/-- CMP, absolute (R254). -/
def execCmpAbs (a : Word) (s : State) : Result :=
  doCmp 0xCD (.abs a) s

/-- CMP, absolute-indexed-X (R254). -/
def execCmpAbsx (a : Word) (s : State) : Result :=
  doCmp 0xDD (.absx a) s

/-- CMP, absolute-indexed-Y (R254). -/
def execCmpAbsy (a : Word) (s : State) : Result :=
  doCmp 0xD9 (.absy a) s

/-- CMP, zero-page-indexed-indirect-via-X (R254). -/
def execCmpIndx (z : Byte) (s : State) : Result :=
  doCmp 0xC1 (.indx z) s

/-- CMP, zero-page-indirect-indexed-via-Y (R254). -/
def execCmpIndy (z : Byte) (s : State) : Result :=
  doCmp 0xD1 (.indy z) s

/-- CPX, immediate (R255). -/
def execCpxImm (v : Byte) (s : State) : Result :=
  doCpx 0xE0 (.imm v) s

/-- CPX, zero-page (R255). -/
def execCpxZp (z : Byte) (s : State) : Result :=
  doCpx 0xE4 (.zp z) s

/-- CPX, absolute (R255). -/
def execCpxAbs (a : Word) (s : State) : Result :=
  doCpx 0xEC (.abs a) s

/-- CPY, immediate (R256). -/
def execCpyImm (v : Byte) (s : State) : Result :=
  doCpy 0xC0 (.imm v) s

/-- CPY, zero-page (R256). -/
def execCpyZp (z : Byte) (s : State) : Result :=
  doCpy 0xC4 (.zp z) s

/-- CPY, absolute (R256). -/
def execCpyAbs (a : Word) (s : State) : Result :=
  doCpy 0xCC (.abs a) s

end Sys2Proof.Machine
end

