-- ==== Sys2Proof/Machine/Control.lean ====
section
/-! DEFINITION. Control transfer, BRK and NOP (R330 to R344). -/

namespace Sys2Proof.Machine

/-- `Branch(cond)` (R330): PC, which is past the operand, moves to the relative target if `cond`. -/
def branch (cond : Bool) (opc : Byte) (op8 : Byte) (s : State) : Result :=
  withAddress opc (.rel op8) s fun target => if cond then { s with pc := target } else s

/-- JMP with either operand form: PC takes `op16` (abs) or the pointer's word (ind), which is what
`Resolve` gives (R177, R180, R339). -/
def doJmp (opc : Byte) (o : Operand) (s : State) : Result :=
  withAddress opc o s fun target => { s with pc := target }

/-- BCC (R331). -/
def execBcc (d : Byte) (s : State) : Result :=
  branch (!s.flag .c) 0x90 d s

/-- BCS (R332). -/
def execBcs (d : Byte) (s : State) : Result :=
  branch (s.flag .c) 0xB0 d s

/-- BEQ (R333). -/
def execBeq (d : Byte) (s : State) : Result :=
  branch (s.flag .z) 0xF0 d s

/-- BMI (R334). -/
def execBmi (d : Byte) (s : State) : Result :=
  branch (s.flag .n) 0x30 d s

/-- BNE (R335). -/
def execBne (d : Byte) (s : State) : Result :=
  branch (!s.flag .z) 0xD0 d s

/-- BPL (R336). -/
def execBpl (d : Byte) (s : State) : Result :=
  branch (!s.flag .n) 0x10 d s

/-- BVC (R337). -/
def execBvc (d : Byte) (s : State) : Result :=
  branch (!s.flag .v) 0x50 d s

/-- BVS (R338). -/
def execBvs (d : Byte) (s : State) : Result :=
  branch (s.flag .v) 0x70 d s

/-- JMP, absolute (R339). -/
def execJmpAbs (a : Word) (s : State) : Result :=
  doJmp 0x4C (.abs a) s

/-- JMP, absolute-indirect (R339). -/
def execJmpInd (a : Word) (s : State) : Result :=
  doJmp 0x6C (.ind a) s

/-- JSR: push PC - 1, the address of its last byte, high byte first, then go to `a` (R340). -/
def execJsr (a : Word) (s : State) : Result :=
  let ret := s.pc - 1
  let s := (s.push (hiByte ret)).push (loByte ret)
  .next { s with pc := a }

/-- RTS: pull low and high byte; PC is one past that address (R341). -/
def execRts (s : State) : Result :=
  let (lo, s) := s.pull
  let (hi, s) := s.pull
  .next { s with pc := wordOf hi lo + 1 }

/-- RTI: pull the status, then PC low and high (R342). -/
def execRti (s : State) : Result :=
  let (v, s) := s.pull
  let s := s.loadStatus v
  let (lo, s) := s.pull
  let (hi, s) := s.pull
  .next { s with pc := wordOf hi lo }

/-- BRK: B and I set, the engine halted; nothing pushed, no vector, PC left at opAddr + 1 (R343). -/
def execBrk (s : State) : Result :=
  .next ((s.setFlag .b).setFlag .i).halt

/-- NOP (R344). -/
def execNop (s : State) : Result := .next s

end Sys2Proof.Machine
end

