-- ==== Sys2Proof/Machine/FlagOps.lean ====
section
/-! DEFINITION. The flag instructions CLC, SEC, CLI, SEI, CLD, SED, CLV (R146 to R152): one Flag Unit operation each. -/

namespace Sys2Proof.Machine

/-- CLC (R146). -/
def execClc (s : State) : Result :=
  .next (s.clearFlag .c)

/-- SEC (R147). -/
def execSec (s : State) : Result :=
  .next (s.setFlag .c)

/-- CLI (R148). -/
def execCli (s : State) : Result :=
  .next (s.clearFlag .i)

/-- SEI (R149). -/
def execSei (s : State) : Result :=
  .next (s.setFlag .i)

/-- CLD (R150). -/
def execCld (s : State) : Result :=
  .next (s.clearFlag .d)

/-- SED (R151). -/
def execSed (s : State) : Result :=
  .next (s.setFlag .d)

/-- CLV (R152). -/
def execClv (s : State) : Result :=
  .next (s.clearFlag .v)

end Sys2Proof.Machine
end

