-- ==== Sys2Proof/Machine/IncDec.lean ====
section
/-! DEFINITION. Increment and decrement of memory, X and Y (R230 to R237). -/

namespace Sys2Proof.Machine

/-- Read the byte at the effective address, write `f` of it back, then N and Z of the new value: the
shape of `incrementInMemory` and `decrementInMemory` (R230, R231), the address resolved once. -/
def updateInMemory (f : Byte → Byte) (opc : Byte) (o : Operand) (s : State) : Result :=
  withAddress opc o s fun ea =>
    let new := f (s.memRead ea)
    (s.memWrite ea new).updateNZ new

/-- INC with any operand form: `incrementInMemory`, `+1` modulo 256 (R230, R232). -/
def doInc (opc : Byte) (o : Operand) (s : State) : Result := updateInMemory (· + 1) opc o s

/-- DEC with any operand form: `decrementInMemory`, `-1` modulo 256 (R231, R233). -/
def doDec (opc : Byte) (o : Operand) (s : State) : Result := updateInMemory (· - 1) opc o s

/-- INC, zero-page (R232). -/
def execIncZp (z : Byte) (s : State) : Result :=
  doInc 0xE6 (.zp z) s

/-- INC, zero-page-indexed-X (R232). -/
def execIncZpx (z : Byte) (s : State) : Result :=
  doInc 0xF6 (.zpx z) s

/-- INC, absolute (R232). -/
def execIncAbs (a : Word) (s : State) : Result :=
  doInc 0xEE (.abs a) s

/-- INC, absolute-indexed-X (R232). -/
def execIncAbsx (a : Word) (s : State) : Result :=
  doInc 0xFE (.absx a) s

/-- DEC, zero-page (R233). -/
def execDecZp (z : Byte) (s : State) : Result :=
  doDec 0xC6 (.zp z) s

/-- DEC, zero-page-indexed-X (R233). -/
def execDecZpx (z : Byte) (s : State) : Result :=
  doDec 0xD6 (.zpx z) s

/-- DEC, absolute (R233). -/
def execDecAbs (a : Word) (s : State) : Result :=
  doDec 0xCE (.abs a) s

/-- DEC, absolute-indexed-X (R233). -/
def execDecAbsx (a : Word) (s : State) : Result :=
  doDec 0xDE (.absx a) s

/-- INX (R234). -/
def execInx (s : State) : Result :=
  .next (({ s with x := s.x + 1 } : State).updateNZ (s.x + 1))

/-- INY (R235). -/
def execIny (s : State) : Result :=
  .next (({ s with y := s.y + 1 } : State).updateNZ (s.y + 1))

/-- DEX (R236). -/
def execDex (s : State) : Result :=
  .next (({ s with x := s.x - 1 } : State).updateNZ (s.x - 1))

/-- DEY (R237). -/
def execDey (s : State) : Result :=
  .next (({ s with y := s.y - 1 } : State).updateNZ (s.y - 1))

end Sys2Proof.Machine
end

