-- ==== Sys2Proof/Machine/LoadStore.lean ====
section
/-! DEFINITION. Loads, stores and register transfers (R200 to R213). -/

namespace Sys2Proof.Machine

/-- `A <- v`: the `load` primitive with destination A, which writes no flag (R200). -/
def loadA (s : State) (v : Byte) : State := { s with a := v }

/-- `X <- v`: the `load` primitive with destination X, which writes no flag (R200). -/
def loadX (s : State) (v : Byte) : State := { s with x := v }

/-- `Y <- v`: the `load` primitive with destination Y, which writes no flag (R200). -/
def loadY (s : State) (v : Byte) : State := { s with y := v }

/-- `store(v, mode, operand)`: writes no flag and does not read the byte it overwrites (R201). -/
def storeValue (opc : Byte) (o : Operand) (v : Byte) (s : State) : Result :=
  withAddress opc o s fun ea => s.memWrite ea v

/-- LDA with any operand form: load, then N and Z of the value (R200, R202). -/
def doLda (opc : Byte) (o : Operand) (s : State) : Result :=
  withOperand opc o s fun m => (loadA s m).updateNZ m

/-- LDX with any operand form: load, then N and Z of the value (R200, R203). -/
def doLdx (opc : Byte) (o : Operand) (s : State) : Result :=
  withOperand opc o s fun m => (loadX s m).updateNZ m

/-- LDY with any operand form: load, then N and Z of the value (R200, R204). -/
def doLdy (opc : Byte) (o : Operand) (s : State) : Result :=
  withOperand opc o s fun m => (loadY s m).updateNZ m

/-- STA with any operand form (R205). -/
def doSta (opc : Byte) (o : Operand) (s : State) : Result :=
  storeValue opc o s.a s

/-- STX with any operand form (R206). -/
def doStx (opc : Byte) (o : Operand) (s : State) : Result :=
  storeValue opc o s.x s

/-- STY with any operand form (R207). -/
def doSty (opc : Byte) (o : Operand) (s : State) : Result :=
  storeValue opc o s.y s

/-- LDA, immediate (R202). -/
def execLdaImm (v : Byte) (s : State) : Result :=
  doLda 0xA9 (.imm v) s

/-- LDA, zero-page (R202). -/
def execLdaZp (z : Byte) (s : State) : Result :=
  doLda 0xA5 (.zp z) s

/-- LDA, zero-page-indexed-X (R202). -/
def execLdaZpx (z : Byte) (s : State) : Result :=
  doLda 0xB5 (.zpx z) s

/-- LDA, absolute (R202). -/
def execLdaAbs (a : Word) (s : State) : Result :=
  doLda 0xAD (.abs a) s

/-- LDA, absolute-indexed-X (R202). -/
def execLdaAbsx (a : Word) (s : State) : Result :=
  doLda 0xBD (.absx a) s

/-- LDA, absolute-indexed-Y (R202). -/
def execLdaAbsy (a : Word) (s : State) : Result :=
  doLda 0xB9 (.absy a) s

/-- LDA, zero-page-indexed-indirect-via-X (R202). -/
def execLdaIndx (z : Byte) (s : State) : Result :=
  doLda 0xA1 (.indx z) s

/-- LDA, zero-page-indirect-indexed-via-Y (R202). -/
def execLdaIndy (z : Byte) (s : State) : Result :=
  doLda 0xB1 (.indy z) s

/-- LDX, immediate (R203). -/
def execLdxImm (v : Byte) (s : State) : Result :=
  doLdx 0xA2 (.imm v) s

/-- LDX, zero-page (R203). -/
def execLdxZp (z : Byte) (s : State) : Result :=
  doLdx 0xA6 (.zp z) s

/-- LDX, zero-page-indexed-Y (R203). -/
def execLdxZpy (z : Byte) (s : State) : Result :=
  doLdx 0xB6 (.zpy z) s

/-- LDX, absolute (R203). -/
def execLdxAbs (a : Word) (s : State) : Result :=
  doLdx 0xAE (.abs a) s

/-- LDX, absolute-indexed-Y (R203). -/
def execLdxAbsy (a : Word) (s : State) : Result :=
  doLdx 0xBE (.absy a) s

/-- LDY, immediate (R204). -/
def execLdyImm (v : Byte) (s : State) : Result :=
  doLdy 0xA0 (.imm v) s

/-- LDY, zero-page (R204). -/
def execLdyZp (z : Byte) (s : State) : Result :=
  doLdy 0xA4 (.zp z) s

/-- LDY, zero-page-indexed-X (R204). -/
def execLdyZpx (z : Byte) (s : State) : Result :=
  doLdy 0xB4 (.zpx z) s

/-- LDY, absolute (R204). -/
def execLdyAbs (a : Word) (s : State) : Result :=
  doLdy 0xAC (.abs a) s

/-- LDY, absolute-indexed-X (R204). -/
def execLdyAbsx (a : Word) (s : State) : Result :=
  doLdy 0xBC (.absx a) s

/-- STA, zero-page (R205). -/
def execStaZp (z : Byte) (s : State) : Result :=
  doSta 0x85 (.zp z) s

/-- STA, zero-page-indexed-X (R205). -/
def execStaZpx (z : Byte) (s : State) : Result :=
  doSta 0x95 (.zpx z) s

/-- STA, absolute (R205). -/
def execStaAbs (a : Word) (s : State) : Result :=
  doSta 0x8D (.abs a) s

/-- STA, absolute-indexed-X (R205). -/
def execStaAbsx (a : Word) (s : State) : Result :=
  doSta 0x9D (.absx a) s

/-- STA, absolute-indexed-Y (R205). -/
def execStaAbsy (a : Word) (s : State) : Result :=
  doSta 0x99 (.absy a) s

/-- STA, zero-page-indexed-indirect-via-X (R205). -/
def execStaIndx (z : Byte) (s : State) : Result :=
  doSta 0x81 (.indx z) s

/-- STA, zero-page-indirect-indexed-via-Y (R205). -/
def execStaIndy (z : Byte) (s : State) : Result :=
  doSta 0x91 (.indy z) s

/-- STX, zero-page (R206). -/
def execStxZp (z : Byte) (s : State) : Result :=
  doStx 0x86 (.zp z) s

/-- STX, zero-page-indexed-Y (R206). -/
def execStxZpy (z : Byte) (s : State) : Result :=
  doStx 0x96 (.zpy z) s

/-- STX, absolute (R206). -/
def execStxAbs (a : Word) (s : State) : Result :=
  doStx 0x8E (.abs a) s

/-- STY, zero-page (R207). -/
def execStyZp (z : Byte) (s : State) : Result :=
  doSty 0x84 (.zp z) s

/-- STY, zero-page-indexed-X (R207). -/
def execStyZpx (z : Byte) (s : State) : Result :=
  doSty 0x94 (.zpx z) s

/-- STY, absolute (R207). -/
def execStyAbs (a : Word) (s : State) : Result :=
  doSty 0x8C (.abs a) s

/-- TAX (R208). -/
def execTax (s : State) : Result :=
  .next ((loadX s s.a).updateNZ s.a)

/-- TAY (R209). -/
def execTay (s : State) : Result :=
  .next ((loadY s s.a).updateNZ s.a)

/-- TXA (R210). -/
def execTxa (s : State) : Result :=
  .next ((loadA s s.x).updateNZ s.x)

/-- TYA (R211). -/
def execTya (s : State) : Result :=
  .next ((loadA s s.y).updateNZ s.y)

/-- TSX (R212). -/
def execTsx (s : State) : Result :=
  .next ((loadX s s.sp).updateNZ s.sp)

/-- TXS (R213). -/
def execTxs (s : State) : Result :=
  .next { s with sp := s.x }

end Sys2Proof.Machine
end

