-- ==== Sys2Proof/Machine/Logical.lean ====
section
/-! DEFINITION. Logical operations and bit test (R270 to R273). -/

namespace Sys2Proof.Machine

/-- `A <- v; updateNegative(A); updateZero(A)`, the common end of AND, ORA and EOR. -/
def State.setANZ (s : State) (v : Byte) : State := ({ s with a := v } : State).updateNZ v

/-- AND with any operand form (R270). -/
def doAnd (opc : Byte) (o : Operand) (s : State) : Result :=
  withOperand opc o s fun m => s.setANZ (s.a &&& m)

/-- ORA with any operand form (R271). -/
def doOra (opc : Byte) (o : Operand) (s : State) : Result :=
  withOperand opc o s fun m => s.setANZ (s.a ||| m)

/-- EOR with any operand form (R272). -/
def doEor (opc : Byte) (o : Operand) (s : State) : Result :=
  withOperand opc o s fun m => s.setANZ (s.a ^^^ m)

/-- BIT with any operand form: Z from the AND, N and V from bits 7 and 6 of M (R273). -/
def doBit (opc : Byte) (o : Operand) (s : State) : Result :=
  withOperand opc o s fun m =>
    ((s.updateZero (s.a &&& m)).updateNegative m).writeFlag .v (m.getLsbD 6)

/-- AND, immediate (R270). -/
def execAndImm (v : Byte) (s : State) : Result :=
  doAnd 0x29 (.imm v) s

/-- AND, zero-page (R270). -/
def execAndZp (z : Byte) (s : State) : Result :=
  doAnd 0x25 (.zp z) s

/-- AND, zero-page-indexed-X (R270). -/
def execAndZpx (z : Byte) (s : State) : Result :=
  doAnd 0x35 (.zpx z) s

/-- AND, absolute (R270). -/
def execAndAbs (a : Word) (s : State) : Result :=
  doAnd 0x2D (.abs a) s

/-- AND, absolute-indexed-X (R270). -/
def execAndAbsx (a : Word) (s : State) : Result :=
  doAnd 0x3D (.absx a) s

/-- AND, absolute-indexed-Y (R270). -/
def execAndAbsy (a : Word) (s : State) : Result :=
  doAnd 0x39 (.absy a) s

/-- AND, zero-page-indexed-indirect-via-X (R270). -/
def execAndIndx (z : Byte) (s : State) : Result :=
  doAnd 0x21 (.indx z) s

/-- AND, zero-page-indirect-indexed-via-Y (R270). -/
def execAndIndy (z : Byte) (s : State) : Result :=
  doAnd 0x31 (.indy z) s

/-- ORA, immediate (R271). -/
def execOraImm (v : Byte) (s : State) : Result :=
  doOra 0x09 (.imm v) s

/-- ORA, zero-page (R271). -/
def execOraZp (z : Byte) (s : State) : Result :=
  doOra 0x05 (.zp z) s

/-- ORA, zero-page-indexed-X (R271). -/
def execOraZpx (z : Byte) (s : State) : Result :=
  doOra 0x15 (.zpx z) s

/-- ORA, absolute (R271). -/
def execOraAbs (a : Word) (s : State) : Result :=
  doOra 0x0D (.abs a) s

/-- ORA, absolute-indexed-X (R271). -/
def execOraAbsx (a : Word) (s : State) : Result :=
  doOra 0x1D (.absx a) s

/-- ORA, absolute-indexed-Y (R271). -/
def execOraAbsy (a : Word) (s : State) : Result :=
  doOra 0x19 (.absy a) s

/-- ORA, zero-page-indexed-indirect-via-X (R271). -/
def execOraIndx (z : Byte) (s : State) : Result :=
  doOra 0x01 (.indx z) s

/-- ORA, zero-page-indirect-indexed-via-Y (R271). -/
def execOraIndy (z : Byte) (s : State) : Result :=
  doOra 0x11 (.indy z) s

/-- EOR, immediate (R272). -/
def execEorImm (v : Byte) (s : State) : Result :=
  doEor 0x49 (.imm v) s

/-- EOR, zero-page (R272). -/
def execEorZp (z : Byte) (s : State) : Result :=
  doEor 0x45 (.zp z) s

/-- EOR, zero-page-indexed-X (R272). -/
def execEorZpx (z : Byte) (s : State) : Result :=
  doEor 0x55 (.zpx z) s

/-- EOR, absolute (R272). -/
def execEorAbs (a : Word) (s : State) : Result :=
  doEor 0x4D (.abs a) s

/-- EOR, absolute-indexed-X (R272). -/
def execEorAbsx (a : Word) (s : State) : Result :=
  doEor 0x5D (.absx a) s

/-- EOR, absolute-indexed-Y (R272). -/
def execEorAbsy (a : Word) (s : State) : Result :=
  doEor 0x59 (.absy a) s

/-- EOR, zero-page-indexed-indirect-via-X (R272). -/
def execEorIndx (z : Byte) (s : State) : Result :=
  doEor 0x41 (.indx z) s

/-- EOR, zero-page-indirect-indexed-via-Y (R272). -/
def execEorIndy (z : Byte) (s : State) : Result :=
  doEor 0x51 (.indy z) s

/-- BIT, zero-page (R273). -/
def execBitZp (z : Byte) (s : State) : Result :=
  doBit 0x24 (.zp z) s

/-- BIT, absolute (R273). -/
def execBitAbs (a : Word) (s : State) : Result :=
  doBit 0x2C (.abs a) s

end Sys2Proof.Machine
end

