-- ==== Sys2Proof/Machine/Shift.lean ====
section
/-! DEFINITION. Shifts and rotates (R290 to R294). -/

namespace Sys2Proof.Machine

/-- A shift or rotate: `new` and the carry out computed from the old target and the carry in; C, then
the target, then N and Z (R290 to R294). -/
def shiftTarget (new : Byte → Bool → Byte) (carry : Byte → Bool) (opc : Byte) (o : Operand) (s : State) :
    Result :=
  withTarget opc o s fun t =>
    let old := s.readTarget t
    let r := new old (s.flag .c)
    ((s.writeFlag .c (carry old)).writeTarget t r).updateNZ r

/-- `zext_8(P.C)` (R292). -/
def carryByte (c : Bool) : Byte := (BitVec.ofBool c).setWidth 8

/-- ASL with any operand form (R290). -/
def doAsl (opc : Byte) (o : Operand) (s : State) : Result :=
  shiftTarget (fun old _ => old <<< 1) (fun old => old.getLsbD 7) opc o s

/-- LSR with any operand form (R291). -/
def doLsr (opc : Byte) (o : Operand) (s : State) : Result :=
  shiftTarget (fun old _ => old >>> 1) (fun old => old.getLsbD 0) opc o s

/-- ROL with any operand form: the old C enters bit 0 (R292). -/
def doRol (opc : Byte) (o : Operand) (s : State) : Result :=
  shiftTarget (fun old c => old <<< 1 ||| carryByte c) (fun old => old.getLsbD 7) opc o s

/-- ROR with any operand form: the old C enters bit 7 (R293). -/
def doRor (opc : Byte) (o : Operand) (s : State) : Result :=
  shiftTarget (fun old c => old >>> 1 ||| carryByte c <<< 7) (fun old => old.getLsbD 0) opc o s

/-- ASL, accumulator (R290). -/
def execAslAcc (s : State) : Result :=
  doAsl 0x0A .acc s

/-- ASL, zero-page (R290). -/
def execAslZp (z : Byte) (s : State) : Result :=
  doAsl 0x06 (.zp z) s

/-- ASL, zero-page-indexed-X (R290). -/
def execAslZpx (z : Byte) (s : State) : Result :=
  doAsl 0x16 (.zpx z) s

/-- ASL, absolute (R290). -/
def execAslAbs (a : Word) (s : State) : Result :=
  doAsl 0x0E (.abs a) s

/-- ASL, absolute-indexed-X (R290). -/
def execAslAbsx (a : Word) (s : State) : Result :=
  doAsl 0x1E (.absx a) s

/-- LSR, accumulator (R291). -/
def execLsrAcc (s : State) : Result :=
  doLsr 0x4A .acc s

/-- LSR, zero-page (R291). -/
def execLsrZp (z : Byte) (s : State) : Result :=
  doLsr 0x46 (.zp z) s

/-- LSR, zero-page-indexed-X (R291). -/
def execLsrZpx (z : Byte) (s : State) : Result :=
  doLsr 0x56 (.zpx z) s

/-- LSR, absolute (R291). -/
def execLsrAbs (a : Word) (s : State) : Result :=
  doLsr 0x4E (.abs a) s

/-- LSR, absolute-indexed-X (R291). -/
def execLsrAbsx (a : Word) (s : State) : Result :=
  doLsr 0x5E (.absx a) s

/-- ROL, accumulator (R292). -/
def execRolAcc (s : State) : Result :=
  doRol 0x2A .acc s

/-- ROL, zero-page (R292). -/
def execRolZp (z : Byte) (s : State) : Result :=
  doRol 0x26 (.zp z) s

/-- ROL, zero-page-indexed-X (R292). -/
def execRolZpx (z : Byte) (s : State) : Result :=
  doRol 0x36 (.zpx z) s

/-- ROL, absolute (R292). -/
def execRolAbs (a : Word) (s : State) : Result :=
  doRol 0x2E (.abs a) s

/-- ROL, absolute-indexed-X (R292). -/
def execRolAbsx (a : Word) (s : State) : Result :=
  doRol 0x3E (.absx a) s

/-- ROR, accumulator (R293). -/
def execRorAcc (s : State) : Result :=
  doRor 0x6A .acc s

/-- ROR, zero-page (R293). -/
def execRorZp (z : Byte) (s : State) : Result :=
  doRor 0x66 (.zp z) s

/-- ROR, zero-page-indexed-X (R293). -/
def execRorZpx (z : Byte) (s : State) : Result :=
  doRor 0x76 (.zpx z) s

/-- ROR, absolute (R293). -/
def execRorAbs (a : Word) (s : State) : Result :=
  doRor 0x6E (.abs a) s

/-- ROR, absolute-indexed-X (R293). -/
def execRorAbsx (a : Word) (s : State) : Result :=
  doRor 0x7E (.absx a) s

end Sys2Proof.Machine
end

