-- ==== Sys2Proof/Machine/Stack.lean ====
section
/-! DEFINITION. The stack instructions PHA, PHP, PLA, PLP (R313 to R316). -/

namespace Sys2Proof.Machine

/-- PHA (R313). -/
def execPha (s : State) : Result :=
  .next (s.push s.a)

/-- PHP (R314). -/
def execPhp (s : State) : Result :=
  .next (s.push s.pushedStatus)

/-- PLA (R315). -/
def execPla (s : State) : Result :=
  let (v, s) := s.pull
  .next (({ s with a := v } : State).updateNZ v)

/-- PLP (R316). -/
def execPlp (s : State) : Result :=
  let (v, s) := s.pull
  .next (s.loadStatus v)

end Sys2Proof.Machine
end

