-- ==== Sys2Proof/Machine/Fetch.lean ====
section
/-! DEFINITION. Fetching an instruction: the opcode byte, the check that it is wired in, the operand bytes
(R110 to R115), and a program's way into memory (R444). -/

namespace Sys2Proof.Machine

/-- `FetchByte()` (R110): the byte at PC, and the state with PC past it. -/
def State.fetchByte (s : State) : Byte × State :=
  (s.memRead s.pc, { s with pc := s.pc + 1 })

/-- What a fetch leaves: the engine faulted at the opcode (R115), or an instruction ready to execute, in
the state where PC is past its operand (R113). -/
inductive Fetched where
  | faulted (s : State)
  | ready (i : Instr) (s : State)
  deriving DecidableEq, Repr

/-- The fetch half of `step()` (R111): opcode, wired-in check, operand. -/
def State.fetch (s : State) : Fetched :=
  let opAddr := s.pc
  let (opc, s) := s.fetchByte
  match wiredEntry s.cfg opc with
  | .noInstr => .faulted (s.raiseFault .unimplementedOpcode opc opAddr)
  | .f0 i => .ready i s
  | .f1 make =>
    let (op8, s) := s.fetchByte
    .ready (make op8) s
  | .f2 make =>
    let (lo, s) := s.fetchByte
    let (hi, s) := s.fetchByte
    .ready (make (wordOf hi lo)) s

/-- The host's load of an image, cell by cell (R444); a cell's address is taken modulo 65536 (R51). -/
def State.loadImage (s : State) : List Host.Cell → State
  | [] => s
  | (k, v) :: rest => (s.memWrite (BitVec.ofNat 16 k) v).loadImage rest

/-- The bytes of a table word, stored at PC, PC + 1 and PC + 2, in an engine made Running (log 7). -/
def State.placeWord (s : State) (nbits w : Nat) : State :=
  let s := s.memWrite s.pc (tableByte nbits w 0)
  let s := s.memWrite (s.pc + 1) (tableByte nbits w 1)
  let s := s.memWrite (s.pc + 2) (tableByte nbits w 2)
  { s with engine := .running }

end Sys2Proof.Machine
end

