-- ==== Sys2Proof/Machine/Step.lean ====
section
/-! DEFINITION. One step (R111), and how the host places an instruction where the next step fetches it. -/

namespace Sys2Proof.Machine

/-- `step()` (R111). An engine that is not Running keeps its state (R116; log 4). -/
def step (s : State) : Host.Outcome State Fault Refusal :=
  match s.engine with
  | .running =>
    match s.fetch with
    | .faulted t => .next t
    | .ready i t => exec i t
  | .halted => .next s
  | .faulted _ _ _ => .next s

/-- `s` with the instruction of a table word where `step` fetches next, in a Running engine (log 7). -/
def State.withFetchWord (s : State) (nbits w : Nat) : State := s.placeWord nbits w

end Sys2Proof.Machine
end

