-- ==== Sys2Proof/Machine/Run.lean ====
section
/-! DEFINITION. `run()` (R117): reset, then step while the engine is Running. -/

namespace Sys2Proof.Machine

/-- Step while the engine is Running, at most `fuel` times. Nothing where the engine still runs when the
fuel is spent: `run()` has no timeout, so no end is claimed (R117, U9; log 9). -/
def runLoop : Nat → State → Option State
  | 0, s => if s.engine = .running then none else some s
  | fuel + 1, s =>
    if s.engine = .running then
      match step s with
      | .next t => runLoop fuel t
      | .fault _ => none
      | .refused _ => none
    else some s

/-- `run()` from the prior state `s` returns in the state `t` (R117). A run that never returns has no
such `t`. -/
def HostRun (s t : State) : Prop := ∃ fuel, runLoop fuel s.hostReset = some t

end Sys2Proof.Machine
end

