-- ==== Sys2Proof/WellFormed.lean ====
section
/-! DEFINITION. What a well-formed engine configuration is (R9), and which instructions are well-formed
for one: those it has wired in (R86). The operand fields of `Instr` have the width of the encoding, so
there is no other check to make on a term. -/

namespace Sys2Proof

/-- A list of bytes in strictly rising order, so that one set is one list. -/
def strictlyRising : List Byte → Bool
  | [] => true
  | [_] => true
  | b :: c :: rest => decide (b.toNat < c.toNat) && strictlyRising (c :: rest)

/-- IMPLEMENTED is "a subset of the 151 opcodes … that contains at least 0x00 (BRK) and 0xA9 (LDA
immediate)" (R9), written in its one rising form. -/
def Config.wf (c : Config) : Bool :=
  strictlyRising c.implemented && c.implemented.all isDocumented &&
    decide (0x00#8 ∈ c.implemented) && decide (0xA9#8 ∈ c.implemented)

/-- An instruction of the engine with parameters `c`: its opcode is wired in (R9, R86). -/
def Instr.wellFormed (c : Config) (i : Instr) : Bool := isWired c i.opcode

end Sys2Proof
end

