-- ==== Sys2Proof/Safety.lean ====
section
/-! DEFINITION. The terms claims are stated in: what a step keeps, the flags of a result, where an
instruction's result lands, the invariant of the machine. -/

namespace Sys2Proof

/-- The 105 byte values that are not instructions, as R85 lists them. -/
def undefinedOpcodes : List Byte :=
  [0x02, 0x03, 0x04, 0x07, 0x0B, 0x0C, 0x0F, 0x12, 0x13, 0x14, 0x17, 0x1A, 0x1B, 0x1C, 0x1F] ++
  [0x22, 0x23, 0x27, 0x2B, 0x2F, 0x32, 0x33, 0x34, 0x37, 0x3A, 0x3B, 0x3C, 0x3F] ++
  [0x42, 0x43, 0x44, 0x47, 0x4B, 0x4F, 0x52, 0x53, 0x54, 0x57, 0x5A, 0x5B, 0x5C, 0x5F] ++
  [0x62, 0x63, 0x64, 0x67, 0x6B, 0x6F, 0x72, 0x73, 0x74, 0x77, 0x7A, 0x7B, 0x7C, 0x7F] ++
  [0x80, 0x82, 0x83, 0x87, 0x89, 0x8B, 0x8F, 0x92, 0x93, 0x97, 0x9B, 0x9C, 0x9E, 0x9F] ++
  [0xA3, 0xA7, 0xAB, 0xAF, 0xB2, 0xB3, 0xB7, 0xBB, 0xBF, 0xC2, 0xC3, 0xC7, 0xCB, 0xCF] ++
  [0xD2, 0xD3, 0xD4, 0xD7, 0xDA, 0xDB, 0xDC, 0xDF, 0xE2, 0xE3, 0xE7, 0xEB, 0xEF] ++
  [0xF2, 0xF3, 0xF4, 0xF7, 0xFA, 0xFB, 0xFC, 0xFF]

namespace Machine

/-- The three bytes at PC, enough for any instruction (R80). -/
def State.bytesAtPC (s : State) : List Byte :=
  [s.memRead s.pc, s.memRead (s.pc + 1), s.memRead (s.pc + 2)]

/-- Every byte of memory reads in `t` as in `s`. -/
def MemoryKept (s t : State) : Prop := ∀ ad : Word, t.memRead ad = s.memRead ad

/-- Every byte of memory outside `eas` reads in `t` as in `s`. -/
def MemoryKeptBut (eas : List Word) (s t : State) : Prop :=
  ∀ ad : Word, ad ∉ eas → t.memRead ad = s.memRead ad

/-- After a flag operation: U reads 1 and every other flag outside `fs` is as in `s` (R29, R145). -/
def FlagsKeptBut (fs : List Flag) (s t : State) : Prop :=
  t.flag .u = true ∧ ∀ f : Flag, f ≠ .u → f ∉ fs → t.flag f = s.flag f

/-- N is bit 7 of `v` and Z says that `v` is zero (R141, R142). -/
def NZFrom (v : Byte) (t : State) : Prop :=
  t.flag .n = v.getLsbD 7 ∧ t.flag .z = decide (v = 0x00#8)

/-- The value `v` was stored at the effective address `ea` and nothing else but P may have changed. What
the address then reads is said for canonical memories. -/
def StoredAt (ea : Word) (v : Byte) (s t : State) : Prop :=
  t = { s with mem := t.mem, p := t.p } ∧ (s.mem.wf = true → t.memRead ea = v) ∧ MemoryKeptBut [ea] s t

/-- The read-modify-write of R186: `old` was read from the instruction's target, A or the byte at its
effective address, `new` was put there, and nothing else but P may have changed. -/
def WritesBack (i : Instr) (old new : Byte) (s t : State) : Prop :=
  (i.mode = .acc ∧ old = s.a ∧ t = { s with a := new, p := t.p } ∧ MemoryKept s t) ∨
  (i.mode ≠ .acc ∧ ∃ ea, s.resolve i.operand = some ea ∧ old = s.memRead ea ∧ StoredAt ea new s t)

/-- The engine is stopped: no instruction executes until the host resets it (R121). -/
def Final (s : State) : Prop := s.engine ≠ .running

/-- The invariant of the machine. -/
structure Inv (s : State) : Prop where
  /-- memory is in its canonical form -/
  memory : s.mem.wf = true
  /-- the parameters are ones R9 allows -/
  parameters : s.cfg.wf = true
  /-- "Unused bit is always 1" (R29) -/
  unused : s.flag .u = true
  /-- while Running, P.B = 0 (R317) -/
  running : s.engine = .running → s.flag .b = false
  /-- only BRK halts, and it has set B and I (R343) -/
  halted : s.engine = .halted → s.flag .b = true ∧ s.flag .i = true
  /-- the fault record is true: the only cause is UnimplementedOpcode, the opcode is not wired in, it
  stands at the recorded address, and PC is one past it (R184, R401, R404) -/
  faulted : ∀ cause opc ad, s.engine = .faulted cause opc ad →
    cause = .unimplementedOpcode ∧ isWired s.cfg opc = false ∧ s.memRead ad = opc ∧ s.pc = ad + 1

end Machine

end Sys2Proof
end

