-- ==== Sys2Proof/Certificates/Slice0/Obligations.lean ====
section
/-! DEFINITION. The obligations: statements about the machine for the provers, each naming the rule of
the spec it formalises. -/

open Sys2Proof Sys2Proof.Machine

/-- For every prior state with vector bytes lo at 0xFFFC and hi at 0xFFFD, reset() leaves A = X = Y = SP =
0x00, PC = hi ++ lo, exactly U and D set (P = 0x28 ascending, 0x14 literal), the engine Running, and
memory and parameters as they were; two prior states with the same vector bytes and parameters give the
same registers, P and engine state. Formalises R34, R441. -/
def Obligations.ResetValues : Prop :=
  (∀ (s : State) (lo hi : Byte), s.memRead 0xFFFC = lo → s.memRead 0xFFFD = hi →
    s.hostReset = { s with
      a := 0x00, x := 0x00, y := 0x00, sp := 0x00, pc := hi ++ lo, engine := .running
      p := (match s.cfg.layout with | .ascending => 0x28 | .literal => 0x14) } ∧
    ∀ f, s.hostReset.flag f = decide (f = .u ∨ f = .d)) ∧
  ∀ s s' : State, s'.memRead 0xFFFC = s.memRead 0xFFFC → s'.memRead 0xFFFD = s.memRead 0xFFFD → s'.cfg = s.cfg →
    s'.hostReset = { s.hostReset with mem := s'.mem }

/-- Any state with nothing listed in memory and the default parameters becomes State.reset by reset(). That
nothing listed reads as 0x00 is the model's choice (log 3); the default parameters are R9's (log 1, log
2). Rests on 70_reset_and_hazards.md, 10_state.md. -/
def Obligations.ResetIsHostReset : Prop :=
  ∀ s : State, s.mem = [] → s.cfg = Config.standard → s.hostReset = State.reset

/-- State.reset has canonical memory, allowed parameters, U = 1, B = 0 and a Running engine. The empty memory
is the model's choice (log 3). Rests on 10_state.md, 70_reset_and_hazards.md. -/
def Obligations.InvAtReset : Prop :=
  Inv State.reset

/-- From every state with the invariant, a step that answers a next state answers one with the invariant:
memory canonical, parameters allowed, U = 1, B = 0 while Running, B = I = 1 when Halted, and a true fault
record when Faulted. The canonical form of memory is the model's (log 3); that the parameters are data of
the state is the model's too (log 1, log 2), and what they may be is R9's; U = 1 is R29's, B while Running
R317's, B and I when Halted R343's, the fault record R401's, R402's and R404's. Rests on 10_state.md,
48_stack.md, 49_control.md, 60_exceptions.md, 00_scope.md. -/
def Obligations.StepKeepsInv : Prop :=
  ∀ s t : State, Inv s → step s = .next t → Inv t

/-- From any state with canonical memory and allowed parameters, in any engine state, loading any image cell
by cell and applying reset() gives a state with the invariant. That an image is loaded as a list of cells
is the model's choice (log 12), and so is the canonical form of memory (log 3) and that the parameters R9
allows are data of the state (log 1, log 2). Rests on 70_reset_and_hazards.md, 10_state.md, 00_scope.md. -/
def Obligations.BootEstablishesInv : Prop :=
  ∀ (cells : List Host.Cell) (s : State), s.mem.wf = true → s.cfg.wf = true →
    Inv (s.loadImage cells).hostReset

/-- Bytes decode to the instruction i with rest left over exactly when they are the encoding of i followed by
rest, for every instruction and every operand value. Rests on 30_encoding.md. -/
def Obligations.DecodeEncodeAgree : Prop :=
  ∀ (bs rest : List Byte) (i : Instr), decode bs = .ok (i, rest) ↔ bs = encode i ++ rest

/-- One encoding or more of each family, written out from R84 with low byte first operands (R80, R82), decodes
to the instruction it stands for. Rests on 30_encoding.md. -/
def Obligations.DecodeWords : Prop :=
  decode [0x38] = .ok (.sec, []) ∧ decode [0xA9, 0x10] = .ok (.ldaImm 0x10, []) ∧
  decode [0x9D, 0x00, 0x04] = .ok (.staAbsx 0x0400, []) ∧ decode [0x96, 0x10] = .ok (.stxZpy 0x10, []) ∧
  decode [0xFE, 0xFF, 0xFF] = .ok (.incAbsx 0xFFFF, []) ∧ decode [0xCA] = .ok (.dex, []) ∧
  decode [0x71, 0x20] = .ok (.adcIndy 0x20, []) ∧ decode [0xE1, 0x20] = .ok (.sbcIndx 0x20, []) ∧
  decode [0x2C, 0x34, 0x12] = .ok (.bitAbs 0x1234, []) ∧ decode [0x6A] = .ok (.rorAcc, []) ∧
  decode [0x28] = .ok (.plp, []) ∧ decode [0xD0, 0xFD] = .ok (.bne 0xFD, []) ∧
  decode [0x6C, 0xFF, 0x12] = .ok (.jmpInd 0x12FF, []) ∧ decode [0x20, 0x10, 0x06] = .ok (.jsr 0x0610, []) ∧
  decode [0x00] = .ok (.brk, [])

/-- A byte is one of the 105 listed exactly when it decodes to nothing whatever follows it; a Running engine
whose opcode byte is one of them goes to Faulted(UnimplementedOpcode, byte, opAddr) with PC = opAddr + 1
and nothing else changed, and so it does at an opcode of the table outside IMPLEMENTED. Formalises R85,
which the spec marks with its decision D4. -/
def Obligations.UndefinedOpcodes : Prop :=
  (∀ b : Byte, b ∈ undefinedOpcodes ↔ ∀ rest, decode (b :: rest) = .error (.unimplemented b)) ∧
  undefinedOpcodes.length = 105 ∧
  ∀ s : State, s.engine = .running →
    s.memRead s.pc ∈ undefinedOpcodes ∨ s.memRead s.pc ∉ s.cfg.implemented →
    step s = .next { s with
      pc := s.pc + 1, engine := .faulted .unimplementedOpcode (s.memRead s.pc) s.pc }

/-- In a Running engine, when the bytes at PC decode to i and i is wired in, step is exec of i in the state
whose PC is past the instruction's bytes. Rests on 40_engine.md. -/
def Obligations.StepRunsDecoded : Prop :=
  ∀ (s : State) (i : Instr) (rest : List Byte), s.engine = .running → decode s.bytesAtPC = .ok (i, rest) →
    i.wellFormed s.cfg = true → step s = exec i { s with pc := s.pc + BitVec.ofNat 16 i.length }

/-- In a Running engine whose opcode byte is not in the table or not in IMPLEMENTED, step leaves PC = opAddr +
1 and Faulted(UnimplementedOpcode, opcode, opAddr), every other register, P, memory and the parameters
unchanged. Formalises R115, which the spec marks with its decision D4. -/
def Obligations.UnwiredOpcodeFaults : Prop :=
  ∀ s : State, s.engine = .running → isWired s.cfg (s.memRead s.pc) = false →
    ∃ t, step s = .next t ∧ MemoryKept s t ∧
      t = { s with pc := s.pc + 1, engine := .faulted .unimplementedOpcode (s.memRead s.pc) s.pc }

/-- In Halted and in Faulted, step answers the state unchanged. That this is a next state and not a stop is
the model's reading (log 4). Rests on 40_engine.md, 60_exceptions.md. -/
def Obligations.StoppedEngineIsInert : Prop :=
  ∀ s : State, Final s → step s = .next s

/-- Every step of a Running engine answers a next state, and that state is Faulted(cause, opcode, address)
exactly when the cause is UnimplementedOpcode, the opcode is the byte at PC, the address is PC and the
byte is not wired in. AddressingError never occurs. Rests on 60_exceptions.md, 42_addressing.md. -/
def Obligations.StepFaultsExactly : Prop :=
  ∀ s : State, s.engine = .running → ∃ t, step s = .next t ∧ ∀ cause opc ad,
    t.engine = .faulted cause opc ad ↔
      cause = .unimplementedOpcode ∧ opc = s.memRead s.pc ∧ ad = s.pc ∧ isWired s.cfg (s.memRead s.pc) = false

/-- A step of a Running engine leaves it Halted exactly when the opcode byte at PC is 0x00 and is wired in.
Rests on 40_engine.md, 49_control.md, 60_exceptions.md. -/
def Obligations.OnlyBrkHalts : Prop :=
  ∀ s t : State, s.engine = .running → step s = .next t →
    (t.engine = .halted ↔ s.memRead s.pc = 0x00 ∧ isWired s.cfg 0x00 = true)

/-- For each of the 151 instructions, every operand and every state, exec answers a next state; the engine
state changes only for BRK, which halts; the parameters, which are data of the state by the model's choice
(log 1, log 2), never change. No instruction raises AddressingError. Rests on 40_engine.md,
42_addressing.md, 60_exceptions.md. -/
def Obligations.ExecAlwaysCompletes : Prop :=
  ∀ (i : Instr) (s : State), ∃ t, exec i s = .next t ∧ t.cfg = s.cfg ∧
    t.engine = (if i = .brk then .halted else s.engine)

/-- In a Running engine at a wired-in instruction other than the eight branches, JMP, JSR, RTS and RTI, step
leaves PC = (opAddr + length) mod 65536, where length is 1, 2 or 3; for BRK that is opAddr + 1. This is
R119, which the spec marks as derived from R113 and R114. Rests on 40_engine.md. -/
def Obligations.PcAfterStep : Prop :=
  ∀ (s : State) (i : Instr) (rest : List Byte), s.engine = .running → decode s.bytesAtPC = .ok (i, rest) →
    i.wellFormed s.cfg = true →
    i.mnemonic ∉ [.bcc, .bcs, .beq, .bmi, .bne, .bpl, .bvc, .bvs, .jmp, .jsr, .rts, .rti] →
    ∃ t, step s = .next t ∧ t.pc.toNat = (s.pc.toNat + i.length) % 65536 ∧ i.length ∈ [1, 2, 3] ∧
      (i = .brk → i.length = 1)

/-- setFlag and clearFlag set and clear the named flag and force U to 1, and change no other flag, register or
byte; updateNegative writes bit 7 of the value to N in both directions; updateZero writes (value = 0) to
Z; updateOverflow writes its formula to V. These are R140, R141, R142, R143 and R145; that the bit
updateNegative returns is a function of its own, negativeBit, is the model's choice (log 11). Rests on
41_flag_unit.md. -/
def Obligations.FlagUnit : Prop :=
  ∀ (s : State) (f g : Flag) (v a b r : Byte),
    (s.setFlag f).flag g = (decide (g = f ∨ g = .u) || s.flag g) ∧
    (s.clearFlag f).flag g = (decide (g = .u) || (decide (g ≠ f) && s.flag g)) ∧
    s.setFlag f = { s with p := (s.setFlag f).p } ∧ s.clearFlag f = { s with p := (s.clearFlag f).p } ∧
    s.updateNegative v = (if v.toNat ≥ 128 then s.setFlag .n else s.clearFlag .n) ∧
    negativeBit v = decide (v.toNat ≥ 128) ∧
    s.updateZero v = (if v.toNat = 0 then s.setFlag .z else s.clearFlag .z) ∧
    s.updateOverflow a b r =
      (if (a ^^^ r) &&& 0x80 ≠ 0 ∧ (b ^^^ r) &&& 0x80 ≠ 0 then s.setFlag .v else s.clearFlag .v)

/-- V after updateOverflow(a, b, r) is the formula of R143, which holds exactly when a and b have the same
sign and r has the other sign. Rests on 41_flag_unit.md. -/
def Obligations.OverflowRule : Prop :=
  ∀ (s : State) (a b r : Byte),
    (s.updateOverflow a b r).flag .v =
      decide (((a ^^^ r) &&& 0x80) ≠ 0 ∧ ((b ^^^ r) &&& 0x80) ≠ 0) ∧
    ((s.updateOverflow a b r).flag .v = true ↔
      (a.toInt < 0 ↔ b.toInt < 0) ∧ ¬(r.toInt < 0 ↔ a.toInt < 0))

/-- In the ascending layout C, Z, I, D, B, U, V, N are bits 0 to 7 of P and in the literal layout bits 7 down
to 0, and a flag of a state is the bit of P at its place. Rests on 10_state.md. -/
def Obligations.FlagPlaces : Prop :=
  ∀ (s : State) (k : Nat) (f : Flag),
    [Flag.c, .z, .i, .d, .b, .u, .v, .n][k]? = some f →
    (s.cfg.layout = .ascending → s.flag f = s.p.getLsbD k) ∧ (s.cfg.layout = .literal → s.flag f = s.p.getLsbD (7 - k))

/-- The effective address of each of the ten modes with one, as a number: zero-page modes wrap modulo 256 in
page 0; absolute modes are 16-bit sums modulo 65536; the pointer modes read a little-endian word,
absolute-indirect with a 16-bit step, the zero-page pointers inside page 0; relative adds the signed
operand to PC modulo 65536. Only 0xB6 and 0x96 use zero-page-Y, only 0x6C absolute-indirect, only the
eight branches relative. The value M a reading instruction uses is op8 itself in immediate mode and the
byte at the address Resolve gives in every other form (none where it gives none). Formalises R174, R175,
R176, R177, R178, R179, R180, R181, R182, R183, R185, which the spec marks with its decisions D2, D18. -/
def Obligations.EffectiveAddresses : Prop :=
  (∀ (s : State) (z : Byte) (w : Word),
    s.resolve (.zp z) = some (BitVec.ofNat 16 z.toNat) ∧
    s.resolve (.zpx z) = some (BitVec.ofNat 16 ((z.toNat + s.x.toNat) % 256)) ∧
    s.resolve (.zpy z) = some (BitVec.ofNat 16 ((z.toNat + s.y.toNat) % 256)) ∧
    s.resolve (.abs w) = some w ∧
    s.resolve (.absx w) = some (BitVec.ofNat 16 ((w.toNat + s.x.toNat) % 65536)) ∧
    s.resolve (.absy w) = some (BitVec.ofNat 16 ((w.toNat + s.y.toNat) % 65536)) ∧
    s.resolve (.ind w) = some (s.memRead (BitVec.ofNat 16 ((w.toNat + 1) % 65536)) ++ s.memRead w) ∧
    s.resolve (.indx z) = some (s.memRead (BitVec.ofNat 16 ((z.toNat + s.x.toNat + 1) % 256)) ++
      s.memRead (BitVec.ofNat 16 ((z.toNat + s.x.toNat) % 256))) ∧
    s.resolve (.indy z) = some (BitVec.ofNat 16
      ((256 * (s.memRead (BitVec.ofNat 16 ((z.toNat + 1) % 256))).toNat +
        (s.memRead (BitVec.ofNat 16 z.toNat)).toNat + s.y.toNat) % 65536)) ∧
    s.resolve (.rel z) = some (BitVec.ofInt 16 (s.pc.toNat + z.toInt))) ∧
  (∀ i : Instr,
    (i.mode = .zpy ↔ i.opcode ∈ [0xB6#8, 0x96#8]) ∧ (i.mode = .ind ↔ i.opcode = 0x6C#8) ∧
    (i.mode = .rel ↔ i.opcode ∈ [0x10#8, 0x30#8, 0x50#8, 0x70#8, 0x90#8, 0xB0#8, 0xD0#8, 0xF0#8])) ∧
  ∀ (s : State) (v : Byte) (o : Operand),
    s.readOperand (.imm v) = some v ∧ (o.mode ≠ .imm → s.readOperand o = (s.resolve o).map s.memRead)

/-- A mnemonic and an addressing mode belong to some instruction exactly when R187's summary gives the
mnemonic that mode, and then to one opcode byte only. Formalises R187, which the spec marks with its
decision D3. -/
def Obligations.ModesOfMnemonics : Prop :=
  (∀ (mn : Mnemonic) (md : Mode), (∃ i : Instr, i.mnemonic = mn ∧ i.mode = md) ↔ md ∈
    (match mn with
      | .adc | .and | .cmp | .eor | .lda | .ora | .sbc => [.imm, .zp, .zpx, .abs, .absx, .absy, .indx, .indy]
      | .sta => [.zp, .zpx, .abs, .absx, .absy, .indx, .indy]
      | .asl | .lsr | .rol | .ror => [.acc, .zp, .zpx, .abs, .absx]
      | .inc | .dec => [.zp, .zpx, .abs, .absx]
      | .ldx => [.imm, .zp, .zpy, .abs, .absy]
      | .ldy => [.imm, .zp, .zpx, .abs, .absx]
      | .stx => [.zp, .zpy, .abs]
      | .sty => [.zp, .zpx, .abs]
      | .cpx | .cpy => [.imm, .zp, .abs]
      | .bit => [.zp, .abs]
      | .bcc | .bcs | .beq | .bmi | .bne | .bpl | .bvc | .bvs => [.rel]
      | .jmp => [.abs, .ind]
      | .jsr => [.abs]
      | _ => [.imp] : List Mode)) ∧
  ∀ i j : Instr, i.mnemonic = j.mnemonic → i.mode = j.mode → i.opcode = j.opcode

/-- An instruction that asks for an operand its form has not (the reading operand in imp and acc, the
effective address in imp, acc and imm, the read-modify-write target in imp and imm) ends in
Faulted(AddressingError, opcode, opAddr), PC = opAddr + length, every other register, P and memory as
before; no instruction of the table ever enters that state. The entry is R402's; that each meaning hands
in its opcode and that opAddr is PC less the length is the model's reading (log 6); that no instruction
reaches it is R184's, which the spec marks as derived. Rests on 60_exceptions.md, 42_addressing.md. -/
def Obligations.AddressingErrorEntry : Prop :=
  (∀ (opc : Byte) (o : Operand) (s t : State) (opAddr : Word),
    s.pc = opAddr + BitVec.ofNat 16 (1 + o.mode.operandBytes) →
    t = { s with engine := .faulted .addressingError opc opAddr } →
    (o.mode ∈ [.imp, .acc] → ∀ k : Byte → State, withOperand opc o s k = .next t) ∧
    (o.mode ∈ [.imp, .acc, .imm] → ∀ k : Word → State, withAddress opc o s k = .next t) ∧
    (o.mode ∈ [.imp, .imm] → ∀ k : Target → State, withTarget opc o s k = .next t)) ∧
  ∀ (i : Instr) (s t : State) (opc : Byte) (ad : Word), exec i s = .next t →
    t.engine = .faulted .addressingError opc ad → s.engine = .faulted .addressingError opc ad

/-- MemRead16(a) takes its low byte from a and its high byte from (a + 1) mod 65536; MemReadZP16(z) takes both
from page 0, the high byte from (z + 1) mod 256, so from 0x0000 when z = 0xFF. Rests on 20_memory.md. -/
def Obligations.LittleEndianReads : Prop :=
  ∀ (s : State) (w : Word) (z : Byte),
    (s.memRead16 w).toNat =
      256 * (s.memRead (BitVec.ofNat 16 ((w.toNat + 1) % 65536))).toNat + (s.memRead w).toNat ∧
    (s.memReadZP16 z).toNat =
      256 * (s.memRead (BitVec.ofNat 16 ((z.toNat + 1) % 256))).toNat + (s.memRead (BitVec.ofNat 16 z.toNat)).toNat ∧
    s.memReadZP16 0xFF = s.memRead 0x0000 ++ s.memRead 0x00FF

/-- In a canonical memory, after a write of v to an address that address reads v, every other address reads as
before, no register changes, and memory stays canonical. The reads and the frame are R61's and R62's; the
canonical form is the model's (log 3). Rests on 20_memory.md. -/
def Obligations.MemoryPort : Prop :=
  ∀ (s : State) (ea : Word) (v : Byte), s.mem.wf = true →
    (s.memWrite ea v).memRead ea = v ∧ MemoryKeptBut [ea] s (s.memWrite ea v) ∧
    s.memWrite ea v = { s with mem := (s.memWrite ea v).mem } ∧ (s.memWrite ea v).mem.wf = true

/-- If two memories in the canonical form read the same byte at each of the 65536 addresses, they are the same
list. The canonical form is the model's (log 3). Rests on 20_memory.md. -/
def Obligations.MemoryCanonical : Prop :=
  ∀ m m' : Memory, m.wf = true → m'.wf = true → (∀ ad : Word, m.read ad.toNat = m'.read ad.toNat) → m = m'

/-- The stack address of SP is 0x0100 | SP, in page 0x01. Push writes the byte there and then decrements SP
modulo 256; Pull increments SP modulo 256 and then reads there; a Pull after a Push gives the byte back
and restores SP. Formalises R310, R311, R312, which the spec marks with its decision D9. -/
def Obligations.PushPull : Prop :=
  ∀ (s : State) (v : Byte),
    (stackAddr s.sp).toNat = 0x0100 + s.sp.toNat ∧
    (s.push v = { s with mem := (s.push v).mem, sp := (s.push v).sp } ∧
      (s.push v).sp.toNat = (s.sp.toNat + 255) % 256 ∧ MemoryKeptBut [stackAddr s.sp] s (s.push v) ∧
      (s.mem.wf = true → (s.push v).memRead (stackAddr s.sp) = v)) ∧
    (s.pull.2 = { s with sp := s.pull.2.sp } ∧ s.pull.2.sp.toNat = (s.sp.toNat + 1) % 256 ∧
      s.pull.1 = s.memRead (stackAddr s.pull.2.sp)) ∧
    (s.mem.wf = true → (s.push v).pull = (v, { s with mem := (s.push v).mem }))

/-- CLC, SEC, CLI, SEI, CLD, SED and CLV are the one-byte encodings given; each completes in every state,
writes its flag, forces U to 1, and changes no other flag, register or byte of memory; PC stays past the
opcode. Formalises R146, R147, R148, R149, R150, R151, R152, which the spec marks with its decisions D3,
D7, D12. -/
def Obligations.FlagInstructions : Prop :=
  encode .clc = [0x18] ∧
  encode .sec = [0x38] ∧
  encode .cli = [0x58] ∧
  encode .sei = [0x78] ∧
  encode .cld = [0xD8] ∧
  encode .sed = [0xF8] ∧
  encode .clv = [0xB8] ∧
  ∀ (s : State) (i : Instr) (f : Flag) (c : Bool),
    (i, f, c) ∈ [(Instr.clc, Flag.c, false), (.sec, .c, true), (.cli, .i, false), (.sei, .i, true),
      (.cld, .d, false), (.sed, .d, true), (.clv, .v, false)] →
    ∃ t, exec i s = .next t ∧ t = { s with p := t.p } ∧ t.flag f = c ∧ FlagsKeptBut [f] s t ∧ MemoryKept s t

/-- LDA has exactly the encodings given. In every form and state it completes: A takes the operand value M, N
is its bit 7, Z says it is zero, U is forced to 1, and no other register, flag or byte changes. The
constructors are ldaImm, ldaZp, ldaZpx, ldaAbs, ldaAbsx, ldaAbsy, ldaIndx, ldaIndy. Formalises R202. -/
def Obligations.LoadA : Prop :=
  (∀ i : Instr, i.mnemonic = .lda ↔ (i.opcode, i.mode) ∈
    [(0xA9#8, Mode.imm), (0xA5#8, Mode.zp), (0xB5#8, Mode.zpx), (0xAD#8, Mode.abs), (0xBD#8, Mode.absx), (0xB9#8, Mode.absy), (0xA1#8, Mode.indx), (0xB1#8, Mode.indy)]) ∧
  ∀ (i : Instr) (s : State), i.mnemonic = .lda →
    ∃ m t, s.readOperand i.operand = some m ∧ exec i s = .next t ∧ t = { s with a := m, p := t.p } ∧
      NZFrom m t ∧ FlagsKeptBut [.n, .z] s t ∧ MemoryKept s t

/-- LDX has exactly the encodings given. In every form and state it completes: X takes the operand value M, N
is its bit 7, Z says it is zero, U is forced to 1, and no other register, flag or byte changes. The
constructors are ldxImm, ldxZp, ldxZpy, ldxAbs, ldxAbsy. Formalises R203, which the spec marks with its
decision D3. -/
def Obligations.LoadX : Prop :=
  (∀ i : Instr, i.mnemonic = .ldx ↔ (i.opcode, i.mode) ∈
    [(0xA2#8, Mode.imm), (0xA6#8, Mode.zp), (0xB6#8, Mode.zpy), (0xAE#8, Mode.abs), (0xBE#8, Mode.absy)]) ∧
  ∀ (i : Instr) (s : State), i.mnemonic = .ldx →
    ∃ m t, s.readOperand i.operand = some m ∧ exec i s = .next t ∧ t = { s with x := m, p := t.p } ∧
      NZFrom m t ∧ FlagsKeptBut [.n, .z] s t ∧ MemoryKept s t

/-- LDY has exactly the encodings given. In every form and state it completes: Y takes the operand value M, N
is its bit 7, Z says it is zero, U is forced to 1, and no other register, flag or byte changes. The
constructors are ldyImm, ldyZp, ldyZpx, ldyAbs, ldyAbsx. Formalises R204, which the spec marks with its
decision D3. -/
def Obligations.LoadY : Prop :=
  (∀ i : Instr, i.mnemonic = .ldy ↔ (i.opcode, i.mode) ∈
    [(0xA0#8, Mode.imm), (0xA4#8, Mode.zp), (0xB4#8, Mode.zpx), (0xAC#8, Mode.abs), (0xBC#8, Mode.absx)]) ∧
  ∀ (i : Instr) (s : State), i.mnemonic = .ldy →
    ∃ m t, s.readOperand i.operand = some m ∧ exec i s = .next t ∧ t = { s with y := m, p := t.p } ∧
      NZFrom m t ∧ FlagsKeptBut [.n, .z] s t ∧ MemoryKept s t

/-- STA (staZp, staZpx, staAbs, staAbsx, staAbsy, staIndx, staIndy), STX (stxZp, stxZpy, stxAbs) and STY
(styZp, styZpx, styAbs) have exactly the encodings given. In every form and state each completes: the byte
at the address Resolve gives becomes A, X or Y, every other byte reads as before, and no register and no
flag changes, P included. Formalises R205, R206, R207, R201, which the spec marks with its decision D3. -/
def Obligations.Stores : Prop :=
  (∀ i : Instr, i.mnemonic = .sta ↔ (i.opcode, i.mode) ∈
    [(0x85#8, Mode.zp), (0x95#8, Mode.zpx), (0x8D#8, Mode.abs), (0x9D#8, Mode.absx), (0x99#8, Mode.absy), (0x81#8, Mode.indx), (0x91#8, Mode.indy)]) ∧
  (∀ i : Instr, i.mnemonic = .stx ↔ (i.opcode, i.mode) ∈
    [(0x86#8, Mode.zp), (0x96#8, Mode.zpy), (0x8E#8, Mode.abs)]) ∧
  (∀ i : Instr, i.mnemonic = .sty ↔ (i.opcode, i.mode) ∈
    [(0x84#8, Mode.zp), (0x94#8, Mode.zpx), (0x8C#8, Mode.abs)]) ∧
  ∀ (i : Instr) (s : State) (v : Byte),
    i.mnemonic = .sta ∧ v = s.a ∨ i.mnemonic = .stx ∧ v = s.x ∨ i.mnemonic = .sty ∧ v = s.y →
    ∃ ea t, s.resolve i.operand = some ea ∧ exec i s = .next t ∧ t.p = s.p ∧ StoredAt ea v s t

/-- TAX, TAY, TXA, TYA, TSX copy the source into the destination and set N and Z from it; TXS copies X into SP
and writes no flag. Each is the one-byte encoding given, completes in every state, and changes nothing
else. Formalises R208, R209, R210, R211, R212, R213, which the spec marks with its decision D3. -/
def Obligations.Transfers : Prop :=
  encode .tax = [0xAA] ∧ encode .tay = [0xA8] ∧ encode .txa = [0x8A] ∧ encode .tya = [0x98] ∧
  encode .tsx = [0xBA] ∧ encode .txs = [0x9A] ∧
  ∀ s : State,
    (∃ t, exec .tax s = .next t ∧ t = { s with x := s.a, p := t.p } ∧ NZFrom s.a t ∧
      FlagsKeptBut [.n, .z] s t ∧ MemoryKept s t) ∧
    (∃ t, exec .tay s = .next t ∧ t = { s with y := s.a, p := t.p } ∧ NZFrom s.a t ∧
      FlagsKeptBut [.n, .z] s t ∧ MemoryKept s t) ∧
    (∃ t, exec .txa s = .next t ∧ t = { s with a := s.x, p := t.p } ∧ NZFrom s.x t ∧
      FlagsKeptBut [.n, .z] s t ∧ MemoryKept s t) ∧
    (∃ t, exec .tya s = .next t ∧ t = { s with a := s.y, p := t.p } ∧ NZFrom s.y t ∧
      FlagsKeptBut [.n, .z] s t ∧ MemoryKept s t) ∧
    (∃ t, exec .tsx s = .next t ∧ t = { s with x := s.sp, p := t.p } ∧ NZFrom s.sp t ∧
      FlagsKeptBut [.n, .z] s t ∧ MemoryKept s t) ∧
    (∃ t, exec .txs s = .next t ∧ t = { s with sp := s.x } ∧ MemoryKept s t)

/-- INC (incZp, incZpx, incAbs, incAbsx) and DEC (decZp, decZpx, decAbs, decAbsx) have exactly the encodings
given. In every form and state each completes: the byte at the address resolved becomes itself plus or
minus one modulo 256, N and Z are of the new value, U is forced to 1, and C, every other flag, register
and byte is unchanged. Formalises R232, R233, which the spec marks with its decision D3. -/
def Obligations.IncDecMemory : Prop :=
  (∀ i : Instr, i.mnemonic = .inc ↔ (i.opcode, i.mode) ∈
    [(0xE6#8, Mode.zp), (0xF6#8, Mode.zpx), (0xEE#8, Mode.abs), (0xFE#8, Mode.absx)]) ∧
  (∀ i : Instr, i.mnemonic = .dec ↔ (i.opcode, i.mode) ∈
    [(0xC6#8, Mode.zp), (0xD6#8, Mode.zpx), (0xCE#8, Mode.abs), (0xDE#8, Mode.absx)]) ∧
  ∀ (i : Instr) (s : State), i.mnemonic = .inc ∨ i.mnemonic = .dec →
    ∃ ea new t, s.resolve i.operand = some ea ∧
      new.toNat = ((s.memRead ea).toNat + (if i.mnemonic = .inc then 1 else 255)) % 256 ∧
      exec i s = .next t ∧ StoredAt ea new s t ∧ NZFrom new t ∧ FlagsKeptBut [.n, .z] s t

/-- Each is the one-byte encoding given, completes in every state, changes its register by one modulo 256,
sets N and Z from the new value, forces U to 1, and changes nothing else. Formalises R234, R235, R236,
R237, which the spec marks with its decision D3. -/
def Obligations.IncDecRegisters : Prop :=
  encode .inx = [0xE8] ∧ encode .iny = [0xC8] ∧ encode .dex = [0xCA] ∧ encode .dey = [0x88] ∧
  ∀ s : State,
    (∃ v t, exec .inx s = .next t ∧ v.toNat = (s.x.toNat + 1) % 256 ∧ t = { s with x := v, p := t.p } ∧ NZFrom v t ∧
      FlagsKeptBut [.n, .z] s t ∧ MemoryKept s t) ∧
    (∃ v t, exec .iny s = .next t ∧ v.toNat = (s.y.toNat + 1) % 256 ∧ t = { s with y := v, p := t.p } ∧ NZFrom v t ∧
      FlagsKeptBut [.n, .z] s t ∧ MemoryKept s t) ∧
    (∃ v t, exec .dex s = .next t ∧ v.toNat = (s.x.toNat + 255) % 256 ∧ t = { s with x := v, p := t.p } ∧ NZFrom v t ∧
      FlagsKeptBut [.n, .z] s t ∧ MemoryKept s t) ∧
    (∃ v t, exec .dey s = .next t ∧ v.toNat = (s.y.toNat + 255) % 256 ∧ t = { s with y := v, p := t.p } ∧ NZFrom v t ∧
      FlagsKeptBut [.n, .z] s t ∧ MemoryKept s t)

/-- ADC (adcImm, adcZp, adcZpx, adcAbs, adcAbsx, adcAbsy, adcIndx, adcIndy) has exactly the encodings given.
In every form and state it completes: A takes A + M + C modulo 256 whatever D is, C says the sum reached
256, V is the overflow formula on the old A, M and the result, N and Z are of the result, U is forced to
1, and I, D, B, every other register and every byte is unchanged. Formalises R251, which the spec marks
with its decisions D3, D7. -/
def Obligations.AdcResult : Prop :=
  (∀ i : Instr, i.mnemonic = .adc ↔ (i.opcode, i.mode) ∈
    [(0x69#8, Mode.imm), (0x65#8, Mode.zp), (0x75#8, Mode.zpx), (0x6D#8, Mode.abs), (0x7D#8, Mode.absx), (0x79#8, Mode.absy), (0x61#8, Mode.indx), (0x71#8, Mode.indy)]) ∧
  ∀ (i : Instr) (s : State), i.mnemonic = .adc →
    ∃ m r t, s.readOperand i.operand = some m ∧ exec i s = .next t ∧
      r.toNat = (s.a.toNat + m.toNat + (s.flag .c).toNat) % 256 ∧ t = { s with a := r, p := t.p } ∧
      t.flag .c = decide (s.a.toNat + m.toNat + (s.flag .c).toNat ≥ 256) ∧
      t.flag .v = decide (((s.a ^^^ r) &&& 0x80) ≠ 0 ∧ ((m ^^^ r) &&& 0x80) ≠ 0) ∧
      NZFrom r t ∧ FlagsKeptBut [.c, .z, .v, .n] s t ∧ MemoryKept s t

/-- SBC (sbcImm, sbcZp, sbcZpx, sbcAbs, sbcAbsx, sbcAbsy, sbcIndx, sbcIndy) has exactly the encodings given.
In every form and state it completes: A takes A - M - (1 - C) modulo 256, C says there was no borrow, V is
updateOverflow(A, M ^ 0xFF, r), which is 1 iff A and M have different signs and r has a sign different
from A, N and Z are of the result, U is forced to 1, and nothing else changes. Formalises R252, which the
spec marks with its decision D8. -/
def Obligations.SbcResult : Prop :=
  (∀ i : Instr, i.mnemonic = .sbc ↔ (i.opcode, i.mode) ∈
    [(0xE9#8, Mode.imm), (0xE5#8, Mode.zp), (0xF5#8, Mode.zpx), (0xED#8, Mode.abs), (0xFD#8, Mode.absx), (0xF9#8, Mode.absy), (0xE1#8, Mode.indx), (0xF1#8, Mode.indy)]) ∧
  ∀ (i : Instr) (s : State), i.mnemonic = .sbc →
    ∃ m r t, s.readOperand i.operand = some m ∧ exec i s = .next t ∧ t = { s with a := r, p := t.p } ∧
      (r.toNat : Int) = ((s.a.toNat : Int) - m.toNat - (1 - (s.flag .c).toNat)) % 256 ∧
      t.flag .c = decide ((s.a.toNat : Int) - m.toNat - (1 - (s.flag .c).toNat) ≥ 0) ∧
      t.flag .v = overflowBit s.a (m ^^^ 0xFF) r ∧ t.flag .v = (s.a.msb != m.msb && r.msb != s.a.msb) ∧
      NZFrom r t ∧ FlagsKeptBut [.c, .z, .v, .n] s t ∧ MemoryKept s t

/-- Reading A and M as two's complement numbers, ADC sets V exactly when A + M + C is outside -128..127, and
SBC exactly when A - M - (1 - C) is. Rests on 45_arithmetic.md, 41_flag_unit.md. -/
def Obligations.SignedOverflow : Prop :=
  ∀ (i : Instr) (s t : State) (m : Byte), s.readOperand i.operand = some m → exec i s = .next t →
    (i.mnemonic = .adc → (t.flag .v = true ↔
      s.a.toInt + m.toInt + (s.flag .c).toNat < -128 ∨ s.a.toInt + m.toInt + (s.flag .c).toNat > 127)) ∧
    (i.mnemonic = .sbc → (t.flag .v = true ↔
      s.a.toInt - m.toInt - (1 - (s.flag .c).toNat) < -128 ∨ s.a.toInt - m.toInt - (1 - (s.flag .c).toNat) > 127))

/-- CMP (cmpImm, cmpZp, cmpZpx, cmpAbs, cmpAbsx, cmpAbsy, cmpIndx, cmpIndy), CPX (cpxImm, cpxZp, cpxAbs) and
CPY (cpyImm, cpyZp, cpyAbs) have exactly the encodings given. In every form and state each completes: C
says reg is at least M unsigned, Z that they are equal, N is bit 7 of the difference modulo 256, U is
forced to 1, and V, I, D, B, every register and every byte is unchanged. Formalises R254, R255, R256,
which the spec marks with its decision D3. -/
def Obligations.Compares : Prop :=
  (∀ i : Instr, i.mnemonic = .cmp ↔ (i.opcode, i.mode) ∈
    [(0xC9#8, Mode.imm), (0xC5#8, Mode.zp), (0xD5#8, Mode.zpx), (0xCD#8, Mode.abs), (0xDD#8, Mode.absx), (0xD9#8, Mode.absy), (0xC1#8, Mode.indx), (0xD1#8, Mode.indy)]) ∧
  (∀ i : Instr, i.mnemonic = .cpx ↔ (i.opcode, i.mode) ∈
    [(0xE0#8, Mode.imm), (0xE4#8, Mode.zp), (0xEC#8, Mode.abs)]) ∧
  (∀ i : Instr, i.mnemonic = .cpy ↔ (i.opcode, i.mode) ∈
    [(0xC0#8, Mode.imm), (0xC4#8, Mode.zp), (0xCC#8, Mode.abs)]) ∧
  ∀ (i : Instr) (s : State) (reg : Byte),
    i.mnemonic = .cmp ∧ reg = s.a ∨ i.mnemonic = .cpx ∧ reg = s.x ∨ i.mnemonic = .cpy ∧ reg = s.y →
    ∃ m t, s.readOperand i.operand = some m ∧ exec i s = .next t ∧ t = { s with p := t.p } ∧
      t.flag .c = decide (reg.toNat ≥ m.toNat) ∧ t.flag .z = decide (reg = m) ∧
      t.flag .n = decide ((reg.toNat + 256 - m.toNat) % 256 ≥ 128) ∧
      FlagsKeptBut [.c, .z, .n] s t ∧ MemoryKept s t

/-- AND, ORA and EOR, each in the eight forms imm, zp, zpx, abs, absx, absy, indx, indy, have exactly the
encodings given. In every form and state each completes: every bit of A becomes the operation of the old
bit and M's, N and Z are of the new A, U is forced to 1, and C, V, I, D, B, every other register and every
byte is unchanged. Formalises R270, R271, R272, which the spec marks with its decision D3. -/
def Obligations.Logicals : Prop :=
  (∀ i : Instr, i.mnemonic = .and ↔ (i.opcode, i.mode) ∈
    [(0x29#8, Mode.imm), (0x25#8, Mode.zp), (0x35#8, Mode.zpx), (0x2D#8, Mode.abs), (0x3D#8, Mode.absx), (0x39#8, Mode.absy), (0x21#8, Mode.indx), (0x31#8, Mode.indy)]) ∧
  (∀ i : Instr, i.mnemonic = .ora ↔ (i.opcode, i.mode) ∈
    [(0x09#8, Mode.imm), (0x05#8, Mode.zp), (0x15#8, Mode.zpx), (0x0D#8, Mode.abs), (0x1D#8, Mode.absx), (0x19#8, Mode.absy), (0x01#8, Mode.indx), (0x11#8, Mode.indy)]) ∧
  (∀ i : Instr, i.mnemonic = .eor ↔ (i.opcode, i.mode) ∈
    [(0x49#8, Mode.imm), (0x45#8, Mode.zp), (0x55#8, Mode.zpx), (0x4D#8, Mode.abs), (0x5D#8, Mode.absx), (0x59#8, Mode.absy), (0x41#8, Mode.indx), (0x51#8, Mode.indy)]) ∧
  ∀ (i : Instr) (s : State) (op : Bool → Bool → Bool),
    i.mnemonic = .and ∧ op = and ∨ i.mnemonic = .ora ∧ op = or ∨ i.mnemonic = .eor ∧ op = xor →
    ∃ m r t, s.readOperand i.operand = some m ∧ exec i s = .next t ∧ t = { s with a := r, p := t.p } ∧
      (∀ k, k < 8 → r.getLsbD k = op (s.a.getLsbD k) (m.getLsbD k)) ∧
      NZFrom r t ∧ FlagsKeptBut [.n, .z] s t ∧ MemoryKept s t

/-- BIT (bitZp, bitAbs) has exactly the encodings given. In every form and state it completes: Z says A & M is
zero, N is bit 7 and V bit 6 of M, U is forced to 1, and A, C, every other flag, register and byte is
unchanged. Formalises R273, which the spec marks with its decision D3. -/
def Obligations.BitTest : Prop :=
  (∀ i : Instr, i.mnemonic = .bit ↔ (i.opcode, i.mode) ∈
    [(0x24#8, Mode.zp), (0x2C#8, Mode.abs)]) ∧
  ∀ (i : Instr) (s : State), i.mnemonic = .bit →
    ∃ m t, s.readOperand i.operand = some m ∧ exec i s = .next t ∧ t = { s with p := t.p } ∧
      t.flag .z = decide (s.a &&& m = 0x00#8) ∧ t.flag .n = m.getLsbD 7 ∧ t.flag .v = m.getLsbD 6 ∧
      FlagsKeptBut [.z, .n, .v] s t ∧ MemoryKept s t

/-- ASL, LSR, ROL and ROR, each in the five forms acc, zp, zpx, abs, absx, have exactly the encodings given.
In every form and state each completes: the target, A or the byte at the address resolved, becomes the old
one shifted or rotated by one place (ROL and ROR take the old C in), C takes the bit shifted out, N and Z
are of the new value, U is forced to 1, and every other flag, register and byte is unchanged. Formalises
R290, R291, R292, R293, which the spec marks with its decision D3. -/
def Obligations.Shifts : Prop :=
  (∀ i : Instr, i.mnemonic = .asl ↔ (i.opcode, i.mode) ∈
    [(0x0A#8, Mode.acc), (0x06#8, Mode.zp), (0x16#8, Mode.zpx), (0x0E#8, Mode.abs), (0x1E#8, Mode.absx)]) ∧
  (∀ i : Instr, i.mnemonic = .lsr ↔ (i.opcode, i.mode) ∈
    [(0x4A#8, Mode.acc), (0x46#8, Mode.zp), (0x56#8, Mode.zpx), (0x4E#8, Mode.abs), (0x5E#8, Mode.absx)]) ∧
  (∀ i : Instr, i.mnemonic = .rol ↔ (i.opcode, i.mode) ∈
    [(0x2A#8, Mode.acc), (0x26#8, Mode.zp), (0x36#8, Mode.zpx), (0x2E#8, Mode.abs), (0x3E#8, Mode.absx)]) ∧
  (∀ i : Instr, i.mnemonic = .ror ↔ (i.opcode, i.mode) ∈
    [(0x6A#8, Mode.acc), (0x66#8, Mode.zp), (0x76#8, Mode.zpx), (0x6E#8, Mode.abs), (0x7E#8, Mode.absx)]) ∧
  ∀ (i : Instr) (s : State), i.mnemonic ∈ [.asl, .lsr, .rol, .ror] →
    ∃ old new t, exec i s = .next t ∧ WritesBack i old new s t ∧
      (i.mnemonic = .asl → new.toNat = 2 * old.toNat % 256) ∧
      (i.mnemonic = .lsr → new.toNat = old.toNat / 2) ∧
      (i.mnemonic = .rol → new.toNat = (2 * old.toNat + (s.flag .c).toNat) % 256) ∧
      (i.mnemonic = .ror → new.toNat = old.toNat / 2 + 128 * (s.flag .c).toNat) ∧
      t.flag .c = (if i.mnemonic = .asl ∨ i.mnemonic = .rol then old.getLsbD 7 else old.getLsbD 0) ∧
      NZFrom new t ∧ FlagsKeptBut [.c, .n, .z] s t

/-- Each is the one-byte encoding given and completes in every state: the byte goes to the stack address of
the old SP, SP is decremented, and no other register, no flag and no other byte changes. PHA's byte is A;
PHP's has every flag of P and B = U = 1. Formalises R313, R314, which the spec marks with its decisions
D3, D9, D10. -/
def Obligations.PushInstructions : Prop :=
  encode .pha = [0x48] ∧ encode .php = [0x08] ∧
  ∀ s : State,
    (∃ t, exec .pha s = .next t ∧ t = { s with sp := s.sp - 1, mem := t.mem } ∧
      (s.mem.wf = true → t.memRead (stackAddr s.sp) = s.a) ∧ MemoryKeptBut [stackAddr s.sp] s t) ∧
    (∃ v t, exec .php s = .next t ∧ t = { s with sp := s.sp - 1, mem := t.mem } ∧
      (∀ f, flagOf s.cfg.layout f v = decide (f = .b ∨ f = .u ∨ s.flag f = true)) ∧
      (s.mem.wf = true → t.memRead (stackAddr s.sp) = v) ∧ MemoryKeptBut [stackAddr s.sp] s t)

/-- Each is the one-byte encoding given and completes in every state: SP is incremented and the byte there
read. PLA puts it in A and sets N and Z; PLP loads C, Z, I, D, V, N from it, keeps B and sets U. No other
register, flag and no byte changes. Formalises R315, R316, which the spec marks with its decisions D3, D9,
D10. -/
def Obligations.PullInstructions : Prop :=
  encode .pla = [0x68] ∧ encode .plp = [0x28] ∧
  ∀ (s : State) (v : Byte), v = s.memRead (stackAddr (s.sp + 1)) →
    (∃ t, exec .pla s = .next t ∧ t = { s with sp := s.sp + 1, a := v, p := t.p } ∧ NZFrom v t ∧
      FlagsKeptBut [.n, .z] s t ∧ MemoryKept s t) ∧
    (∃ t, exec .plp s = .next t ∧ t = { s with sp := s.sp + 1, p := t.p } ∧
      (∀ f ∈ [Flag.c, .z, .i, .d, .v, .n], t.flag f = flagOf s.cfg.layout f v) ∧
      t.flag .b = s.flag .b ∧ t.flag .u = true ∧ MemoryKept s t)

/-- BCC, BCS, BEQ, BMI, BNE, BPL, BVC and BVS have the two-byte encodings given. In every state each
completes: PC, which is opAddr + 2, becomes PC + op8 (signed, modulo 65536) if the flag has the value the
branch tests and stays otherwise; nothing else changes, no flag and no byte. Formalises R331, R332, R333,
R334, R335, R336, R337, R338, which the spec marks with its decision D3. -/
def Obligations.Branches : Prop :=
  ∀ (d : Byte) (s : State) (i : Instr) (opc : Byte) (f : Flag) (c : Bool),
    (i, opc, f, c) ∈ [(Instr.bcc d, 0x90#8, Flag.c, false),
      (.bcs d, 0xB0, .c, true),
      (.beq d, 0xF0, .z, true),
      (.bmi d, 0x30, .n, true),
      (.bne d, 0xD0, .z, false),
      (.bpl d, 0x10, .n, false),
      (.bvc d, 0x50, .v, false),
      (.bvs d, 0x70, .v, true)] →
    encode i = [opc, d] ∧
    ∃ t, exec i s = .next t ∧ MemoryKept s t ∧
      t = { s with pc := if s.flag f = c then BitVec.ofInt 16 (s.pc.toNat + d.toInt) else s.pc }

/-- JMP absolute (jmpAbs) is 0x4C and puts op16 in PC; JMP indirect (jmpInd) is 0x6C and puts in PC the word
with low byte at op16 and high byte at (op16 + 1) mod 65536. Both complete in every state and change
nothing else. Formalises R339, which the spec marks with its decision D3. -/
def Obligations.Jumps : Prop :=
  ∀ (lo hi : Byte) (ad : Word) (s : State), ad = hi ++ lo →
    encode (.jmpAbs ad) = [0x4C, lo, hi] ∧ encode (.jmpInd ad) = [0x6C, lo, hi] ∧
    exec (.jmpAbs ad) s = .next { s with pc := ad } ∧
    exec (.jmpInd ad) s = .next { s with
      pc := s.memRead (BitVec.ofNat 16 ((ad.toNat + 1) % 65536)) ++ s.memRead ad }

/-- JSR (jsr) is 0x20 with a little-endian operand. In every state it completes: PC becomes op16, SP falls by
2 modulo 256, the high byte of PC - 1 goes to the stack address of SP and the low byte to that of SP - 1,
and no other byte, register or flag changes. Formalises R340, which the spec marks with its decisions D3,
D14. -/
def Obligations.JsrResult : Prop :=
  ∀ (lo hi : Byte) (ad : Word) (s : State), ad = hi ++ lo →
    encode (.jsr ad) = [0x20, lo, hi] ∧
    ∃ t, exec (.jsr ad) s = .next t ∧ t = { s with pc := ad, sp := s.sp - 2, mem := t.mem } ∧
      (s.mem.wf = true →
        (t.memRead (stackAddr s.sp)).toNat = (s.pc - 1).toNat / 256 ∧
        (t.memRead (stackAddr (s.sp - 1))).toNat = (s.pc - 1).toNat % 256) ∧
      MemoryKeptBut [stackAddr s.sp, stackAddr (s.sp - 1)] s t

/-- RTS (rts) is 0x60. In every state it completes: SP rises by 2 modulo 256, PC becomes one more than the
word pulled, low byte first, modulo 65536, and nothing else changes. Formalises R341, which the spec marks
with its decisions D3, D14. -/
def Obligations.RtsResult : Prop :=
  encode .rts = [0x60] ∧
  ∀ (s : State) (lo hi : Byte), lo = s.memRead (stackAddr (s.sp + 1)) → hi = s.memRead (stackAddr (s.sp + 2)) →
    ∃ t, exec .rts s = .next t ∧ MemoryKept s t ∧
      t = { s with sp := s.sp + 2, pc := BitVec.ofNat 16 ((256 * hi.toNat + lo.toNat + 1) % 65536) }

/-- RTI (rti) is 0x40. In every state it completes: it pulls the status byte, loading C, Z, I, D, V, N,
keeping B, setting U; then PC low and high, with no increment; SP rises by 3 modulo 256 and nothing else
changes. Formalises R342, which the spec marks with its decisions D3, D10, D12. -/
def Obligations.RtiResult : Prop :=
  encode .rti = [0x40] ∧
  ∀ (s : State) (v lo hi : Byte), v = s.memRead (stackAddr (s.sp + 1)) → lo = s.memRead (stackAddr (s.sp + 2)) →
    hi = s.memRead (stackAddr (s.sp + 3)) →
    ∃ t, exec .rti s = .next t ∧ t = { s with sp := s.sp + 3, pc := hi ++ lo, p := t.p } ∧
      (∀ f ∈ [Flag.c, .z, .i, .d, .v, .n], t.flag f = flagOf s.cfg.layout f v) ∧
      t.flag .b = s.flag .b ∧ t.flag .u = true ∧ MemoryKept s t

/-- BRK (brk) is the one byte 0x00. In every state it completes: B and I become 1, U reads 1, every other flag
is unchanged, the engine is Halted, and PC, SP, A, X, Y and every byte of memory are unchanged, so PC =
opAddr + 1. Formalises R343, which the spec marks with its decision D11. -/
def Obligations.BrkHalts : Prop :=
  encode .brk = [0x00] ∧
  ∀ s : State, ∃ t, exec .brk s = .next t ∧ t = { s with p := t.p, engine := .halted } ∧
    t.flag .b = true ∧ t.flag .i = true ∧ FlagsKeptBut [.b, .i] s t ∧ MemoryKept s t

/-- NOP (nop) is the one byte 0xEA; it completes in every state and changes nothing. Formalises R344, which
the spec marks with its decision D3. -/
def Obligations.NopDoesNothing : Prop :=
  encode .nop = [0xEA] ∧ ∀ s : State, exec .nop s = .next s

/-- If JSR takes s to t and the subroutine reaches a state u with t's SP and t's two pushed bytes in place,
RTS at u goes to the address after the JSR with the SP from before it, wherever on the stack page SP
stood. Rests on 49_control.md, 48_stack.md. -/
def Obligations.CallReturn : Prop :=
  ∀ (ad : Word) (s t u : State), s.mem.wf = true → exec (.jsr ad) s = .next t → u.sp = t.sp →
    u.memRead (stackAddr s.sp) = t.memRead (stackAddr s.sp) →
    u.memRead (stackAddr (s.sp - 1)) = t.memRead (stackAddr (s.sp - 1)) →
    exec .rts u = .next { u with pc := s.pc, sp := s.sp }

/-- If PHA (PHP) takes s to t and a state u has t's SP and the pushed byte in place, PLA (PLP) at u restores
SP and puts s's A in A (s's C, Z, I, D, V, N in P, u's B kept). Rests on 48_stack.md. -/
def Obligations.PushThenPull : Prop :=
  ∀ s t u : State, s.mem.wf = true → u.cfg = s.cfg → u.sp = t.sp →
    u.memRead (stackAddr s.sp) = t.memRead (stackAddr s.sp) →
    (exec .pha s = .next t → ∃ v, exec .pla u = .next v ∧ v.a = s.a ∧ v.sp = s.sp) ∧
    (exec .php s = .next t → ∃ v, exec .plp u = .next v ∧ v.sp = s.sp ∧
      v.flag .b = u.flag .b ∧ ∀ f, f ≠ .b → f ≠ .u → v.flag f = s.flag f)

/-- ADC, SBC, CMP, CPX and CPY give the same result whatever D holds: writing D before the instruction is the
same as writing it after. Rests on 45_arithmetic.md. -/
def Obligations.DecimalIgnored : Prop :=
  ∀ (i : Instr) (s t : State) (d : Bool), i.mnemonic ∈ [.adc, .sbc, .cmp, .cpx, .cpy] → exec i s = .next t →
    exec i (s.writeFlag .d d) = .next (t.writeFlag .d d)

/-- Over all 151 instructions and every state: where a flag other than U differs after an instruction, the
instruction is one that R28's and R144's lists name as a writer of that flag. Rests on 10_state.md,
41_flag_unit.md. -/
def Obligations.FlagWriters : Prop :=
  ∀ (i : Instr) (s t : State) (f : Flag), exec i s = .next t → f ≠ .u → t.flag f ≠ s.flag f →
    i.mnemonic ∈
      (match f with
        | .c => [.clc, .sec, .adc, .sbc, .cmp, .cpx, .cpy, .asl, .lsr, .rol, .ror, .plp, .rti]
        | .i => [.cli, .sei, .brk, .plp, .rti]
        | .d => [.cld, .sed, .plp, .rti]
        | .b => [.brk]
        | .v => [.adc, .sbc, .bit, .clv, .plp, .rti]
        | _ => [.lda, .ldx, .ldy, .tax, .tay, .txa, .tya, .tsx, .pla, .inc, .dec, .inx, .iny, .dex, .dey,
            .adc, .sbc, .cmp, .cpx, .cpy, .and, .ora, .eor, .asl, .lsr, .rol, .ror, .bit, .plp, .rti] :
        List Mnemonic)

/-- Over all 151 instructions and every state, also one where U is 0: if P differs after an instruction, U is
1 after it; and U is 1 after reset(). Formalises R29. -/
def Obligations.UnusedAfterFlagWrite : Prop :=
  ∀ s : State, s.hostReset.flag .u = true ∧
    ∀ i : Instr, ∃ t, exec i s = .next t ∧ (t.p ≠ s.p → t.flag .u = true)

/-- Over all 151 instructions and every state: where A, X, Y, SP or PC differs after the execute phase, the
instruction is one that R21, R22, R23, R24 or R119 names as a writer of it; a shift or rotate that changes
A is in accumulator mode. Rests on 10_state.md, 40_engine.md. -/
def Obligations.RegisterWriters : Prop :=
  ∀ (i : Instr) (s t : State), exec i s = .next t →
    (t.a ≠ s.a → i.mnemonic ∈ [.lda, .txa, .tya, .pla, .adc, .sbc, .and, .ora, .eor] ∨
      i.mode = .acc ∧ i.mnemonic ∈ [.asl, .lsr, .rol, .ror]) ∧
    (t.x ≠ s.x → i.mnemonic ∈ [.ldx, .tax, .tsx, .inx, .dex]) ∧
    (t.y ≠ s.y → i.mnemonic ∈ [.ldy, .tay, .iny, .dey]) ∧
    (t.sp ≠ s.sp → i.mnemonic ∈ [.txs, .pha, .php, .pla, .plp, .jsr, .rts, .rti]) ∧
    (t.pc ≠ s.pc → i.mnemonic ∈ [.bcc, .bcs, .beq, .bmi, .bne, .bpl, .bvc, .bvs, .jmp, .jsr, .rts, .rti])

/-- Over all 151 instructions and every state: where a byte differs after an instruction, the instruction is a
store, INC, DEC or a memory-mode shift or rotate and the byte is at its effective address, or it is PHA,
PHP or JSR and the byte is at the stack address of SP, or for JSR also of SP - 1. Rests on 20_memory.md,
43_load_store.md, 48_stack.md. -/
def Obligations.MemoryWriters : Prop :=
  ∀ (i : Instr) (s t : State) (ad : Word), exec i s = .next t → t.memRead ad ≠ s.memRead ad →
    i.mnemonic ∈ [.sta, .stx, .sty, .inc, .dec, .asl, .lsr, .rol, .ror] ∧ s.resolve i.operand = some ad ∨
    i.mnemonic ∈ [.pha, .php, .jsr] ∧ ad = stackAddr s.sp ∨ i.mnemonic = .jsr ∧ ad = stackAddr (s.sp - 1)

/-- If the run loop ends within some number of steps, it ends in Halted or Faulted; any larger number gives
the same end state; and the host's own stepping, that many times or more, answers that state. The loop
with fuel is the model's form of run() (log 9), that a step of a stopped engine answers the same state is
the model's reading (log 4), and the host leaves the machine alone between the steps (log 14). Rests on
40_engine.md. -/
def Obligations.RunEndsFinally : Prop :=
  ∀ (n k : Nat) (s t : State), runLoop n s = some t →
    Final t ∧ runLoop (n + k) s = some t ∧ Sys2Proof.core.run (n + k) s = .next t

/-- In a state with canonical memory, if the decoder reads i from a table word and i is wired in, the step
after placing that word runs exactly i, with PC past it. Placing a word stands for the host's load of a
program (log 7). Rests on 70_reset_and_hazards.md, 40_engine.md. -/
def Obligations.PlacedWordRuns : Prop :=
  ∀ (s : State) (nbits w : Nat) (i : Instr), s.mem.wf = true → decodeTableWord nbits w = some i →
    i.wellFormed s.cfg = true →
    step (s.withFetchWord nbits w) =
      exec i { s.withFetchWord nbits w with pc := s.pc + BitVec.ofNat 16 i.length }
end

