-- ==== Sys2Proof/Laws/Bits.lean ====
section
/-! SUPPORT. Laws of the bit helpers: joining and splitting words, extension, the address forms. -/

namespace Sys2Proof

theorem toNat_wordOf (hi lo : Byte) : (wordOf hi lo).toNat = 256 * hi.toNat + lo.toNat := by
  have h := lo.isLt
  rw [wordOf, BitVec.toNat_append, ← Nat.shiftLeft_add_eq_or_of_lt h, Nat.shiftLeft_eq]
  omega

theorem toNat_hiByte (w : Word) : (hiByte w).toNat = w.toNat / 256 := by
  have := w.isLt
  simp only [hiByte, BitVec.extractLsb'_toNat, Nat.shiftRight_eq_div_pow]
  omega

theorem toNat_loByte (w : Word) : (loByte w).toNat = w.toNat % 256 := by
  simp only [loByte, BitVec.extractLsb'_toNat, Nat.shiftRight_zero]

@[simp] theorem wordOf_hiByte_loByte (w : Word) : wordOf (hiByte w) (loByte w) = w := by
  apply BitVec.eq_of_toNat_eq
  rw [toNat_wordOf, toNat_hiByte, toNat_loByte]
  omega

@[simp] theorem hiByte_wordOf (hi lo : Byte) : hiByte (wordOf hi lo) = hi := by
  apply BitVec.eq_of_toNat_eq
  have h := toNat_wordOf hi lo
  have := hi.isLt
  have := lo.isLt
  simp only [hiByte, BitVec.extractLsb'_toNat, h, Nat.shiftRight_eq_div_pow]
  omega

@[simp] theorem loByte_wordOf (hi lo : Byte) : loByte (wordOf hi lo) = lo := by
  apply BitVec.eq_of_toNat_eq
  have h := toNat_wordOf hi lo
  have := lo.isLt
  simp only [loByte, BitVec.extractLsb'_toNat, h, Nat.shiftRight_zero]
  omega

namespace Machine

@[simp] theorem toNat_zext16 (v : Byte) : (zext16 v).toNat = v.toNat := by
  have := v.isLt
  simp only [zext16, BitVec.toNat_setWidth]
  omega

@[simp] theorem toInt_sext16 (v : Byte) : (sext16 v).toInt = v.toInt := by
  simp [sext16, BitVec.toInt_signExtend_of_le]

/-- The stack address lies in page 0x01 (R310). -/
theorem toNat_stackAddr (sp : Byte) : (stackAddr sp).toNat = 256 + sp.toNat := by
  have h := sp.isLt
  have e : (256 : Nat) = 1 <<< 8 := rfl
  simp only [stackAddr, BitVec.toNat_or, toNat_zext16, BitVec.toNat_ofNat]
  rw [show (0x0100 % 2 ^ 16 : Nat) = 1 <<< 8 from rfl, ← Nat.shiftLeft_add_eq_or_of_lt h, e]

theorem stackAddr_inj {a b : Byte} : stackAddr a = stackAddr b ↔ a = b := by
  constructor
  · intro h
    have := congrArg BitVec.toNat h
    rw [toNat_stackAddr, toNat_stackAddr] at this
    exact BitVec.eq_of_toNat_eq (by omega)
  · rintro rfl
    rfl

end Machine

end Sys2Proof
end

