-- ==== Sys2Proof/Laws/Flags.lean ====
section
/-! SUPPORT. Laws of the Flag Unit: what one flag write does to every flag, and that two flag bytes with
the same eight flags are equal. -/

namespace Sys2Proof.Machine

theorem flagBit_lt (l : FlagLayout) (f : Flag) : flagBit l f < 8 := by
  cases l <;> cases f <;> decide

theorem flagBit_inj (l : FlagLayout) {f g : Flag} : flagBit l f = flagBit l g ↔ f = g := by
  cases l <;> cases f <;> cases g <;> decide

/-- Every bit of P is a flag (R27, R28). -/
theorem exists_flagBit (l : FlagLayout) (k : Nat) (h : k < 8) : ∃ f, flagBit l f = k := by
  have : ∀ k < 8, ∃ f ∈ [Flag.c, .z, .i, .d, .b, .u, .v, .n], flagBit l f = k := by cases l <;> decide
  obtain ⟨f, -, hf⟩ := this k h
  exact ⟨f, hf⟩

theorem getLsbD_flagMask (l : FlagLayout) (f g : Flag) :
    (flagMask l f).getLsbD (flagBit l g) = decide (g = f) := by
  cases l <;> cases f <;> cases g <;> decide

/-- A flag of a byte is the bit at its place. -/
theorem flagOf_eq_getLsbD (l : FlagLayout) (f : Flag) (v : Byte) : flagOf l f v = v.getLsbD (flagBit l f) := by
  have key : ∀ l ∈ [FlagLayout.ascending, .literal], ∀ f ∈ [Flag.c, .z, .i, .d, .b, .u, .v, .n],
      ∀ n : Fin 256, flagOf l f (BitVec.ofFin n) = (BitVec.ofFin n : Byte).getLsbD (flagBit l f) := by
    decide +kernel
  have := key l (by cases l <;> simp) f (by cases f <;> simp) v.toFin
  simpa using this

theorem flag_eq_getLsbD (s : State) (f : Flag) : s.flag f = s.p.getLsbD (flagBit s.cfg.layout f) :=
  flagOf_eq_getLsbD _ _ _

@[simp] theorem flagOf_or (l : FlagLayout) (f : Flag) (v w : Byte) :
    flagOf l f (v ||| w) = (flagOf l f v || flagOf l f w) := by
  simp [flagOf_eq_getLsbD]

@[simp] theorem flagOf_flagMask (l : FlagLayout) (f g : Flag) : flagOf l g (flagMask l f) = decide (g = f) := by
  rw [flagOf_eq_getLsbD, getLsbD_flagMask]

/-- Two bytes with the same eight flags are equal. -/
theorem eq_of_flagOf {l : FlagLayout} {v w : Byte} (h : ∀ f, flagOf l f v = flagOf l f w) : v = w := by
  apply BitVec.eq_of_getLsbD_eq
  intro k hk
  obtain ⟨f, rfl⟩ := exists_flagBit l k hk
  simpa [flagOf_eq_getLsbD] using h f

@[simp] theorem flag_setFlag (s : State) (f g : Flag) :
    (s.setFlag f).flag g = (s.flag g || decide (g = f) || decide (g = .u)) := by
  simp [State.flag, State.setFlag]

@[simp] theorem flag_clearFlag (s : State) (f g : Flag) :
    (s.clearFlag f).flag g = (s.flag g && !decide (g = f) || decide (g = .u)) := by
  have hg := flagBit_lt s.cfg.layout g
  simp only [State.flag, State.clearFlag, flagOf_or, flagOf_flagMask]
  simp only [flagOf_eq_getLsbD, BitVec.getLsbD_and, BitVec.getLsbD_not, getLsbD_flagMask, hg, decide_true,
    Bool.true_and]

/-- One flag write: the flag takes the value, U reads 1, every other flag is kept (R140, R145). -/
theorem flag_writeFlag (s : State) (f g : Flag) (c : Bool) :
    (s.writeFlag f c).flag g = if g = .u then true else if g = f then c else s.flag g := by
  cases c <;> by_cases hu : g = .u <;> by_cases hf : g = f <;> simp [State.writeFlag, hu, hf]

@[simp] theorem flag_u_writeFlag (s : State) (f : Flag) (c : Bool) : (s.writeFlag f c).flag .u = true := by
  simp [flag_writeFlag]

@[simp] theorem flag_u_updateNZ (s : State) (v : Byte) : (s.updateNZ v).flag .u = true :=
  flag_u_writeFlag ..

/-- The pair updateNegative, updateZero (R141, R142, R144). -/
theorem flag_updateNZ (s : State) (v : Byte) (g : Flag) :
    (s.updateNZ v).flag g =
      if g = .u then true else if g = .z then v == 0x00#8 else if g = .n then v.getLsbD 7 else s.flag g := by
  simp only [State.updateNZ, State.updateZero, State.updateNegative, flag_writeFlag, negativeBit]
  cases g <;> simp

/-- LoadStatus: U reads 1, B is kept, every other flag comes from the byte (R317). -/
theorem flag_loadStatus (s : State) (v : Byte) (g : Flag) :
    (s.loadStatus v).flag g =
      if g = .u then true else if g = .b then s.flag .b else flagOf s.cfg.layout g v := by
  simp only [State.loadStatus, flag_writeFlag]
  cases g <;> simp

/-- The byte PHP pushes has B and U set and P's other flags (R314). -/
theorem flagOf_pushedStatus (s : State) (g : Flag) :
    flagOf s.cfg.layout g s.pushedStatus = (s.flag g || decide (g = .b) || decide (g = .u)) := by
  simp [State.pushedStatus, State.flag]

/-- The overflow rule in terms of signs (R143). -/
theorem overflowBit_eq (a b r : Byte) : overflowBit a b r = (a.msb == b.msb && r.msb != a.msb) := by
  have key : ∀ v : Byte, ((v &&& 0x80#8) != 0#8) = v.msb := by decide +kernel
  simp only [overflowBit, key, BitVec.msb_xor]
  cases a.msb <;> cases b.msb <;> cases r.msb <;> rfl

end Sys2Proof.Machine
end

