-- ==== Sys2Proof/Laws/State.lean ====
section
/-! SUPPORT. One lemma per field per update of the state, and the laws of memory, stack and flag
operations at the level of the state. -/

namespace Sys2Proof.Machine.State

/-! ## Flag operations change P only (R30, R145) -/

@[simp] theorem setFlag_pc (s : State) (f : Flag) : (s.setFlag f).pc = s.pc := rfl
@[simp] theorem setFlag_sp (s : State) (f : Flag) : (s.setFlag f).sp = s.sp := rfl
@[simp] theorem setFlag_a (s : State) (f : Flag) : (s.setFlag f).a = s.a := rfl
@[simp] theorem setFlag_x (s : State) (f : Flag) : (s.setFlag f).x = s.x := rfl
@[simp] theorem setFlag_y (s : State) (f : Flag) : (s.setFlag f).y = s.y := rfl
@[simp] theorem setFlag_engine (s : State) (f : Flag) : (s.setFlag f).engine = s.engine := rfl
@[simp] theorem setFlag_mem (s : State) (f : Flag) : (s.setFlag f).mem = s.mem := rfl
@[simp] theorem setFlag_cfg (s : State) (f : Flag) : (s.setFlag f).cfg = s.cfg := rfl
@[simp] theorem clearFlag_pc (s : State) (f : Flag) : (s.clearFlag f).pc = s.pc := rfl
@[simp] theorem clearFlag_sp (s : State) (f : Flag) : (s.clearFlag f).sp = s.sp := rfl
@[simp] theorem clearFlag_a (s : State) (f : Flag) : (s.clearFlag f).a = s.a := rfl
@[simp] theorem clearFlag_x (s : State) (f : Flag) : (s.clearFlag f).x = s.x := rfl
@[simp] theorem clearFlag_y (s : State) (f : Flag) : (s.clearFlag f).y = s.y := rfl
@[simp] theorem clearFlag_engine (s : State) (f : Flag) : (s.clearFlag f).engine = s.engine := rfl
@[simp] theorem clearFlag_mem (s : State) (f : Flag) : (s.clearFlag f).mem = s.mem := rfl
@[simp] theorem clearFlag_cfg (s : State) (f : Flag) : (s.clearFlag f).cfg = s.cfg := rfl
@[simp] theorem writeFlag_pc (s : State) (f : Flag) (c : Bool) : (s.writeFlag f c).pc = s.pc := by cases c <;> rfl
@[simp] theorem writeFlag_sp (s : State) (f : Flag) (c : Bool) : (s.writeFlag f c).sp = s.sp := by cases c <;> rfl
@[simp] theorem writeFlag_a (s : State) (f : Flag) (c : Bool) : (s.writeFlag f c).a = s.a := by cases c <;> rfl
@[simp] theorem writeFlag_x (s : State) (f : Flag) (c : Bool) : (s.writeFlag f c).x = s.x := by cases c <;> rfl
@[simp] theorem writeFlag_y (s : State) (f : Flag) (c : Bool) : (s.writeFlag f c).y = s.y := by cases c <;> rfl
@[simp] theorem writeFlag_engine (s : State) (f : Flag) (c : Bool) : (s.writeFlag f c).engine = s.engine := by cases c <;> rfl
@[simp] theorem writeFlag_mem (s : State) (f : Flag) (c : Bool) : (s.writeFlag f c).mem = s.mem := by cases c <;> rfl
@[simp] theorem writeFlag_cfg (s : State) (f : Flag) (c : Bool) : (s.writeFlag f c).cfg = s.cfg := by cases c <;> rfl
@[simp] theorem updateNegative_pc (s : State) (v : Byte) : (s.updateNegative v).pc = s.pc := by simp [State.updateNegative]
@[simp] theorem updateNegative_sp (s : State) (v : Byte) : (s.updateNegative v).sp = s.sp := by simp [State.updateNegative]
@[simp] theorem updateNegative_a (s : State) (v : Byte) : (s.updateNegative v).a = s.a := by simp [State.updateNegative]
@[simp] theorem updateNegative_x (s : State) (v : Byte) : (s.updateNegative v).x = s.x := by simp [State.updateNegative]
@[simp] theorem updateNegative_y (s : State) (v : Byte) : (s.updateNegative v).y = s.y := by simp [State.updateNegative]
@[simp] theorem updateNegative_engine (s : State) (v : Byte) : (s.updateNegative v).engine = s.engine := by simp [State.updateNegative]
@[simp] theorem updateNegative_mem (s : State) (v : Byte) : (s.updateNegative v).mem = s.mem := by simp [State.updateNegative]
@[simp] theorem updateNegative_cfg (s : State) (v : Byte) : (s.updateNegative v).cfg = s.cfg := by simp [State.updateNegative]
@[simp] theorem updateZero_pc (s : State) (v : Byte) : (s.updateZero v).pc = s.pc := by simp [State.updateZero]
@[simp] theorem updateZero_sp (s : State) (v : Byte) : (s.updateZero v).sp = s.sp := by simp [State.updateZero]
@[simp] theorem updateZero_a (s : State) (v : Byte) : (s.updateZero v).a = s.a := by simp [State.updateZero]
@[simp] theorem updateZero_x (s : State) (v : Byte) : (s.updateZero v).x = s.x := by simp [State.updateZero]
@[simp] theorem updateZero_y (s : State) (v : Byte) : (s.updateZero v).y = s.y := by simp [State.updateZero]
@[simp] theorem updateZero_engine (s : State) (v : Byte) : (s.updateZero v).engine = s.engine := by simp [State.updateZero]
@[simp] theorem updateZero_mem (s : State) (v : Byte) : (s.updateZero v).mem = s.mem := by simp [State.updateZero]
@[simp] theorem updateZero_cfg (s : State) (v : Byte) : (s.updateZero v).cfg = s.cfg := by simp [State.updateZero]
@[simp] theorem updateOverflow_pc (s : State) (v w r : Byte) : (s.updateOverflow v w r).pc = s.pc := by simp [State.updateOverflow]
@[simp] theorem updateOverflow_sp (s : State) (v w r : Byte) : (s.updateOverflow v w r).sp = s.sp := by simp [State.updateOverflow]
@[simp] theorem updateOverflow_a (s : State) (v w r : Byte) : (s.updateOverflow v w r).a = s.a := by simp [State.updateOverflow]
@[simp] theorem updateOverflow_x (s : State) (v w r : Byte) : (s.updateOverflow v w r).x = s.x := by simp [State.updateOverflow]
@[simp] theorem updateOverflow_y (s : State) (v w r : Byte) : (s.updateOverflow v w r).y = s.y := by simp [State.updateOverflow]
@[simp] theorem updateOverflow_engine (s : State) (v w r : Byte) : (s.updateOverflow v w r).engine = s.engine := by simp [State.updateOverflow]
@[simp] theorem updateOverflow_mem (s : State) (v w r : Byte) : (s.updateOverflow v w r).mem = s.mem := by simp [State.updateOverflow]
@[simp] theorem updateOverflow_cfg (s : State) (v w r : Byte) : (s.updateOverflow v w r).cfg = s.cfg := by simp [State.updateOverflow]
@[simp] theorem updateNZ_pc (s : State) (v : Byte) : (s.updateNZ v).pc = s.pc := by simp [State.updateNZ]
@[simp] theorem updateNZ_sp (s : State) (v : Byte) : (s.updateNZ v).sp = s.sp := by simp [State.updateNZ]
@[simp] theorem updateNZ_a (s : State) (v : Byte) : (s.updateNZ v).a = s.a := by simp [State.updateNZ]
@[simp] theorem updateNZ_x (s : State) (v : Byte) : (s.updateNZ v).x = s.x := by simp [State.updateNZ]
@[simp] theorem updateNZ_y (s : State) (v : Byte) : (s.updateNZ v).y = s.y := by simp [State.updateNZ]
@[simp] theorem updateNZ_engine (s : State) (v : Byte) : (s.updateNZ v).engine = s.engine := by simp [State.updateNZ]
@[simp] theorem updateNZ_mem (s : State) (v : Byte) : (s.updateNZ v).mem = s.mem := by simp [State.updateNZ]
@[simp] theorem updateNZ_cfg (s : State) (v : Byte) : (s.updateNZ v).cfg = s.cfg := by simp [State.updateNZ]
@[simp] theorem loadStatus_pc (s : State) (v : Byte) : (s.loadStatus v).pc = s.pc := by simp [State.loadStatus]
@[simp] theorem loadStatus_sp (s : State) (v : Byte) : (s.loadStatus v).sp = s.sp := by simp [State.loadStatus]
@[simp] theorem loadStatus_a (s : State) (v : Byte) : (s.loadStatus v).a = s.a := by simp [State.loadStatus]
@[simp] theorem loadStatus_x (s : State) (v : Byte) : (s.loadStatus v).x = s.x := by simp [State.loadStatus]
@[simp] theorem loadStatus_y (s : State) (v : Byte) : (s.loadStatus v).y = s.y := by simp [State.loadStatus]
@[simp] theorem loadStatus_engine (s : State) (v : Byte) : (s.loadStatus v).engine = s.engine := by simp [State.loadStatus]
@[simp] theorem loadStatus_mem (s : State) (v : Byte) : (s.loadStatus v).mem = s.mem := by simp [State.loadStatus]
@[simp] theorem loadStatus_cfg (s : State) (v : Byte) : (s.loadStatus v).cfg = s.cfg := by simp [State.loadStatus]

/-! ## Memory, stack, engine -/

@[simp] theorem memWrite_pc (s : State) (ad : Word) (v : Byte) : (s.memWrite ad v).pc = s.pc := rfl
@[simp] theorem memWrite_sp (s : State) (ad : Word) (v : Byte) : (s.memWrite ad v).sp = s.sp := rfl
@[simp] theorem memWrite_a (s : State) (ad : Word) (v : Byte) : (s.memWrite ad v).a = s.a := rfl
@[simp] theorem memWrite_x (s : State) (ad : Word) (v : Byte) : (s.memWrite ad v).x = s.x := rfl
@[simp] theorem memWrite_y (s : State) (ad : Word) (v : Byte) : (s.memWrite ad v).y = s.y := rfl
@[simp] theorem memWrite_p (s : State) (ad : Word) (v : Byte) : (s.memWrite ad v).p = s.p := rfl
@[simp] theorem memWrite_engine (s : State) (ad : Word) (v : Byte) : (s.memWrite ad v).engine = s.engine := rfl
@[simp] theorem memWrite_cfg (s : State) (ad : Word) (v : Byte) : (s.memWrite ad v).cfg = s.cfg := rfl
@[simp] theorem push_pc (s : State) (v : Byte) : (s.push v).pc = s.pc := rfl
@[simp] theorem push_a (s : State) (v : Byte) : (s.push v).a = s.a := rfl
@[simp] theorem push_x (s : State) (v : Byte) : (s.push v).x = s.x := rfl
@[simp] theorem push_y (s : State) (v : Byte) : (s.push v).y = s.y := rfl
@[simp] theorem push_p (s : State) (v : Byte) : (s.push v).p = s.p := rfl
@[simp] theorem push_engine (s : State) (v : Byte) : (s.push v).engine = s.engine := rfl
@[simp] theorem push_cfg (s : State) (v : Byte) : (s.push v).cfg = s.cfg := rfl
@[simp] theorem push_sp (s : State) (v : Byte) : (s.push v).sp = s.sp - 1 := rfl
@[simp] theorem push_mem (s : State) (v : Byte) :
    (s.push v).mem = (s.memWrite (stackAddr s.sp) v).mem := rfl
@[simp] theorem pull_fst (s : State) : s.pull.1 = s.memRead (stackAddr (s.sp + 1)) := rfl
@[simp] theorem pull_snd (s : State) : s.pull.2 = { s with sp := s.sp + 1 } := rfl
@[simp] theorem raiseFault_pc (s : State) (c : FaultCause) (opc : Byte) (ad : Word) : (s.raiseFault c opc ad).pc = s.pc := rfl
@[simp] theorem raiseFault_sp (s : State) (c : FaultCause) (opc : Byte) (ad : Word) : (s.raiseFault c opc ad).sp = s.sp := rfl
@[simp] theorem raiseFault_a (s : State) (c : FaultCause) (opc : Byte) (ad : Word) : (s.raiseFault c opc ad).a = s.a := rfl
@[simp] theorem raiseFault_x (s : State) (c : FaultCause) (opc : Byte) (ad : Word) : (s.raiseFault c opc ad).x = s.x := rfl
@[simp] theorem raiseFault_y (s : State) (c : FaultCause) (opc : Byte) (ad : Word) : (s.raiseFault c opc ad).y = s.y := rfl
@[simp] theorem raiseFault_p (s : State) (c : FaultCause) (opc : Byte) (ad : Word) : (s.raiseFault c opc ad).p = s.p := rfl
@[simp] theorem raiseFault_mem (s : State) (c : FaultCause) (opc : Byte) (ad : Word) : (s.raiseFault c opc ad).mem = s.mem := rfl
@[simp] theorem raiseFault_cfg (s : State) (c : FaultCause) (opc : Byte) (ad : Word) : (s.raiseFault c opc ad).cfg = s.cfg := rfl
@[simp] theorem raiseFault_engine (s : State) (c : FaultCause) (opc : Byte) (ad : Word) :
    (s.raiseFault c opc ad).engine = .faulted c opc ad := rfl
@[simp] theorem halt_pc (s : State) : (s.halt).pc = s.pc := rfl
@[simp] theorem halt_sp (s : State) : (s.halt).sp = s.sp := rfl
@[simp] theorem halt_a (s : State) : (s.halt).a = s.a := rfl
@[simp] theorem halt_x (s : State) : (s.halt).x = s.x := rfl
@[simp] theorem halt_y (s : State) : (s.halt).y = s.y := rfl
@[simp] theorem halt_p (s : State) : (s.halt).p = s.p := rfl
@[simp] theorem halt_mem (s : State) : (s.halt).mem = s.mem := rfl
@[simp] theorem halt_cfg (s : State) : (s.halt).cfg = s.cfg := rfl
@[simp] theorem halt_engine (s : State) : s.halt.engine = .halted := rfl

/-- A state that agrees with `s` in every field but P is an update of P alone. -/
theorem eq_with_p {s t : State} (hpc : t.pc = s.pc) (hsp : t.sp = s.sp) (ha : t.a = s.a) (hx : t.x = s.x)
    (hy : t.y = s.y) (he : t.engine = s.engine) (hm : t.mem = s.mem) (hc : t.cfg = s.cfg) :
    t = { s with p := t.p } := by
  cases s
  cases t
  simp_all

/-- A flag operation is an update of P. -/
theorem writeFlag_eq (s : State) (f : Flag) (c : Bool) : s.writeFlag f c = { s with p := (s.writeFlag f c).p } :=
  eq_with_p (by simp) (by simp) (by simp) (by simp) (by simp) (by simp) (by simp) (by simp)

theorem updateNZ_eq (s : State) (v : Byte) : s.updateNZ v = { s with p := (s.updateNZ v).p } :=
  eq_with_p (by simp) (by simp) (by simp) (by simp) (by simp) (by simp) (by simp) (by simp)

theorem loadStatus_eq (s : State) (v : Byte) : s.loadStatus v = { s with p := (s.loadStatus v).p } :=
  eq_with_p (by simp) (by simp) (by simp) (by simp) (by simp) (by simp) (by simp) (by simp)

/-! ## Reading memory after an update -/

@[simp] theorem memRead_writeFlag (s : State) (f : Flag) (c : Bool) (ad : Word) :
    (s.writeFlag f c).memRead ad = s.memRead ad := by simp [memRead]
@[simp] theorem memRead_updateNZ (s : State) (v : Byte) (ad : Word) :
    (s.updateNZ v).memRead ad = s.memRead ad := by simp [memRead]
@[simp] theorem memRead_loadStatus (s : State) (v : Byte) (ad : Word) :
    (s.loadStatus v).memRead ad = s.memRead ad := by simp [memRead]

theorem memRead_memWrite_other (s : State) {a b : Word} (v : Byte) (h : b ≠ a) :
    (s.memWrite a v).memRead b = s.memRead b :=
  Memory.read_write_other _ _ fun e => h (BitVec.eq_of_toNat_eq e)

theorem memRead_memWrite_same (s : State) (a : Word) (v : Byte) (h : s.mem.wf = true) :
    (s.memWrite a v).memRead a = v :=
  Memory.read_write_same _ _ _ h

theorem wf_memWrite (s : State) (a : Word) (v : Byte) (h : s.mem.wf = true) : (s.memWrite a v).mem.wf = true :=
  Memory.wf_write v h a.isLt

theorem memRead_push_other (s : State) {a : Word} (v : Byte) (h : a ≠ stackAddr s.sp) :
    (s.push v).memRead a = s.memRead a :=
  memRead_memWrite_other s v h

theorem memRead_push_same (s : State) (v : Byte) (h : s.mem.wf = true) : (s.push v).memRead (stackAddr s.sp) = v :=
  memRead_memWrite_same s _ v h

theorem wf_push (s : State) (v : Byte) (h : s.mem.wf = true) : (s.push v).mem.wf = true := wf_memWrite s _ v h

/-- Loading an image keeps the canonical form. -/
theorem wf_loadImage (cells : List Host.Cell) (s : State) (h : s.mem.wf = true) :
    (s.loadImage cells).mem.wf = true := by
  induction cells generalizing s with
  | nil => exact h
  | cons c cells ih => exact ih _ (wf_memWrite s _ _ h)

/-- A read-modify-write target's write keeps the canonical form. -/
theorem wf_writeTarget (s : State) (t : Target) (v : Byte) (h : s.mem.wf = true) :
    (s.writeTarget t v).mem.wf = true := by
  cases t with
  | acc => exact h
  | mem ea => exact wf_memWrite s ea v h

/-- The memory right after reset is canonical. -/
theorem wf_reset : State.reset.mem.wf = true := rfl

/-! ## The flags of a state whose P is untouched -/

theorem flag_congr {s t : State} (hp : t.p = s.p) (hc : t.cfg = s.cfg) (f : Flag) : t.flag f = s.flag f := by
  simp [flag, hp, hc]

@[simp] theorem flag_memWrite (s : State) (ad : Word) (v : Byte) (f : Flag) :
    (s.memWrite ad v).flag f = s.flag f := rfl
@[simp] theorem flag_halt (s : State) (f : Flag) : s.halt.flag f = s.flag f := rfl
@[simp] theorem flag_push (s : State) (v : Byte) (f : Flag) : (s.push v).flag f = s.flag f := rfl
@[simp] theorem flag_writeTarget (s : State) (t : Target) (v : Byte) (f : Flag) :
    (s.writeTarget t v).flag f = s.flag f := by cases t <;> rfl

/-- A flag operation's P depends on P and the parameters alone. -/
theorem loadStatus_p_congr {s t : State} (hp : t.p = s.p) (hc : t.cfg = s.cfg) (v : Byte) :
    (t.loadStatus v).p = (s.loadStatus v).p := by
  apply eq_of_flagOf (l := s.cfg.layout)
  intro f
  have ht := flag_loadStatus t v f
  have hs := flag_loadStatus s v f
  rw [flag, loadStatus_cfg, hc] at ht
  rw [flag, loadStatus_cfg] at hs
  rw [ht, hs, flag_congr hp hc]

/-- Two states with the same fields but P, the same parameters and the same flags are equal. -/
theorem ext_flags {s t : State} (h : t = { s with p := t.p }) (hf : ∀ f, t.flag f = s.flag f) : t = s := by
  have hc : t.cfg = s.cfg := by rw [h]
  have hp : t.p = s.p := eq_of_flagOf (l := s.cfg.layout) fun f => by
    have := hf f
    simpa only [flag, hc] using this
  rw [h, hp]

end Sys2Proof.Machine.State
end

