-- ==== Sys2Proof/Laws/Arithmetic.lean ====
section
/-! SUPPORT. Laws of the shared arithmetic operations: the sum with carry, the comparison, the result
that goes to A. -/

namespace Sys2Proof.Machine

/-- AddWithCarry changes A and P alone (R250). -/
theorem addWithCarry_eq (s : State) (m : Byte) :
    s.addWithCarry m = { s with a := (s.addWithCarry m).a, p := (s.addWithCarry m).p } := by
  refine State.eq_with_p (s := { s with a := (s.addWithCarry m).a }) ?_ ?_ ?_ ?_ ?_ ?_ ?_ ?_ <;>
    simp [State.addWithCarry]

@[simp] theorem addWithCarry_pc (s : State) (m : Byte) : (s.addWithCarry m).pc = s.pc := by
  rw [addWithCarry_eq]
@[simp] theorem addWithCarry_sp (s : State) (m : Byte) : (s.addWithCarry m).sp = s.sp := by
  rw [addWithCarry_eq]
@[simp] theorem addWithCarry_x (s : State) (m : Byte) : (s.addWithCarry m).x = s.x := by
  rw [addWithCarry_eq]
@[simp] theorem addWithCarry_y (s : State) (m : Byte) : (s.addWithCarry m).y = s.y := by
  rw [addWithCarry_eq]
@[simp] theorem addWithCarry_engine (s : State) (m : Byte) : (s.addWithCarry m).engine = s.engine := by
  rw [addWithCarry_eq]
@[simp] theorem addWithCarry_mem (s : State) (m : Byte) : (s.addWithCarry m).mem = s.mem := by
  rw [addWithCarry_eq]
@[simp] theorem addWithCarry_cfg (s : State) (m : Byte) : (s.addWithCarry m).cfg = s.cfg := by
  rw [addWithCarry_eq]

/-- The 9-bit sum is the sum of the three numbers. -/
theorem toNat_sum9 (a m : Byte) (c : Bool) :
    (a.setWidth 9 + m.setWidth 9 + (BitVec.ofBool c).setWidth 9 : BitVec 9).toNat =
      a.toNat + m.toNat + c.toNat := by
  have ha := a.isLt
  have hm := m.isLt
  have hc := c.toNat_le
  simp only [BitVec.toNat_add, BitVec.toNat_setWidth, BitVec.toNat_ofBool]
  omega

/-- A after AddWithCarry (R250). -/
theorem toNat_addWithCarry_a (s : State) (m : Byte) :
    (s.addWithCarry m).a.toNat = (s.a.toNat + m.toNat + (s.flag .c).toNat) % 256 := by
  simp only [State.addWithCarry, State.updateNZ_a, BitVec.toNat_setWidth, toNat_sum9]

/-- The flags after AddWithCarry (R250). -/
theorem flag_addWithCarry (s : State) (m : Byte) (g : Flag) :
    (s.addWithCarry m).flag g =
      match g with
      | .u => true
      | .z => (s.addWithCarry m).a == 0x00#8
      | .n => (s.addWithCarry m).a.getLsbD 7
      | .c => decide (s.a.toNat + m.toNat + (s.flag .c).toNat ≥ 256)
      | .v => overflowBit s.a m (s.addWithCarry m).a
      | .i | .d | .b => s.flag g := by
  have h8 : ∀ b : BitVec 9, b.getLsbD 8 = decide (b.toNat ≥ 256) := by decide +kernel
  rw [← toNat_sum9, ← h8]
  simp only [State.addWithCarry, State.updateNZ_a, flag_updateNZ]
  generalize (s.a.setWidth 9 + m.setWidth 9 + (BitVec.ofBool (s.flag .c)).setWidth 9 : BitVec 9) = sum
  have hc : ∀ (u : State) (r : Byte), ({ u with a := r } : State).flag g = u.flag g := fun u r => rfl
  rw [hc]
  simp only [State.updateOverflow, flag_writeFlag]
  cases g <;> simp

/-- Compare changes P alone (R253). -/
theorem compare_eq (s : State) (reg m : Byte) : s.compare reg m = { s with p := (s.compare reg m).p } := by
  refine State.eq_with_p ?_ ?_ ?_ ?_ ?_ ?_ ?_ ?_ <;> simp [State.compare]

@[simp] theorem compare_pc (s : State) (r m : Byte) : (s.compare r m).pc = s.pc := by rw [compare_eq]
@[simp] theorem compare_sp (s : State) (r m : Byte) : (s.compare r m).sp = s.sp := by rw [compare_eq]
@[simp] theorem compare_a (s : State) (r m : Byte) : (s.compare r m).a = s.a := by rw [compare_eq]
@[simp] theorem compare_x (s : State) (r m : Byte) : (s.compare r m).x = s.x := by rw [compare_eq]
@[simp] theorem compare_y (s : State) (r m : Byte) : (s.compare r m).y = s.y := by rw [compare_eq]
@[simp] theorem compare_engine (s : State) (r m : Byte) : (s.compare r m).engine = s.engine := by rw [compare_eq]
@[simp] theorem compare_mem (s : State) (r m : Byte) : (s.compare r m).mem = s.mem := by rw [compare_eq]
@[simp] theorem compare_cfg (s : State) (r m : Byte) : (s.compare r m).cfg = s.cfg := by rw [compare_eq]

/-- The flags after Compare (R253). -/
theorem flag_compare (s : State) (reg m : Byte) (g : Flag) :
    (s.compare reg m).flag g =
      match g with
      | .u => true
      | .z => reg - m == 0x00#8
      | .n => (reg - m).getLsbD 7
      | .c => decide (m ≤ reg)
      | .v | .i | .d | .b => s.flag g := by
  simp only [State.compare, flag_updateNZ, flag_writeFlag]
  cases g <;> simp

@[simp] theorem setANZ_pc (s : State) (v : Byte) : (s.setANZ v).pc = s.pc := by simp [State.setANZ]
@[simp] theorem setANZ_sp (s : State) (v : Byte) : (s.setANZ v).sp = s.sp := by simp [State.setANZ]
@[simp] theorem setANZ_a (s : State) (v : Byte) : (s.setANZ v).a = v := by simp [State.setANZ]
@[simp] theorem setANZ_x (s : State) (v : Byte) : (s.setANZ v).x = s.x := by simp [State.setANZ]
@[simp] theorem setANZ_y (s : State) (v : Byte) : (s.setANZ v).y = s.y := by simp [State.setANZ]
@[simp] theorem setANZ_engine (s : State) (v : Byte) : (s.setANZ v).engine = s.engine := by simp [State.setANZ]
@[simp] theorem setANZ_mem (s : State) (v : Byte) : (s.setANZ v).mem = s.mem := by simp [State.setANZ]
@[simp] theorem setANZ_cfg (s : State) (v : Byte) : (s.setANZ v).cfg = s.cfg := by simp [State.setANZ]

end Sys2Proof.Machine
end

