-- ==== Sys2Proof/Laws/Decode.lean ====
section
/-! SUPPORT. Laws of the opcode map, and of fetching: the entry of a byte makes only instructions whose
encoding begins with that byte; what a fetch answers for each kind of entry. -/

namespace Sys2Proof

/-- What the entry of an opcode byte makes is encoded with that byte first (R83, R86). -/
theorem encode_of_opcodeEntry (opc : Byte) :
    match opcodeEntry opc with
    | .noInstr => True
    | .f0 i => encode i = [opc]
    | .f1 make => ∀ op8, encode (make op8) = [opc, op8]
    | .f2 make => ∀ w, encode (make w) = [opc, loByte w, hiByte w] := by
  have key : ∀ n : Fin 256,
      match opcodeEntry (BitVec.ofFin n) with
      | .noInstr => True
      | .f0 i => encode i = [BitVec.ofFin n]
      | .f1 make => ∀ op8, encode (make op8) = [BitVec.ofFin n, op8]
      | .f2 make => ∀ w, encode (make w) = [BitVec.ofFin n, loByte w, hiByte w] := by
    intro n
    fin_cases n <;> first | exact trivial | rfl | (intro _; rfl)
  exact key opc.toFin

theorem encode_f0 {opc : Byte} {i : Instr} (h : opcodeEntry opc = .f0 i) : encode i = [opc] := by
  have := encode_of_opcodeEntry opc
  rwa [h] at this

theorem encode_f1 {opc : Byte} {make : Byte → Instr} (h : opcodeEntry opc = .f1 make) (op8 : Byte) :
    encode (make op8) = [opc, op8] := by
  have := encode_of_opcodeEntry opc
  rw [h] at this
  exact this op8

theorem encode_f2 {opc : Byte} {make : Word → Instr} (h : opcodeEntry opc = .f2 make) (w : Word) :
    encode (make w) = [opc, loByte w, hiByte w] := by
  have := encode_of_opcodeEntry opc
  rw [h] at this
  exact this w

theorem length_bytes (o : Operand) : o.bytes.length = o.mode.operandBytes := by cases o <;> rfl

/-- An encoding has the instruction's length (R80, R81). -/
theorem length_encode (i : Instr) : (encode i).length = i.length := by
  simp only [encode, List.length_cons, length_bytes, Instr.length, Instr.mode, Nat.add_comm]

theorem isDocumented_iff (opc : Byte) : isDocumented opc = true ↔ opcodeEntry opc ≠ .noInstr := by
  unfold isDocumented
  cases opcodeEntry opc <;> simp

/-- A byte is wired in exactly when the engine has an entry for it (R115). -/
theorem isWired_iff (c : Config) (opc : Byte) : isWired c opc = true ↔ wiredEntry c opc ≠ .noInstr := by
  simp only [isWired, Bool.and_eq_true, decide_eq_true_eq, isDocumented_iff, wiredEntry]
  by_cases h : opc ∈ c.implemented <;> simp [h]

/-- A wired-in byte has the table's entry. -/
theorem wiredEntry_of_isWired {c : Config} {opc : Byte} (h : isWired c opc = true) :
    wiredEntry c opc = opcodeEntry opc := by
  simp only [isWired, Bool.and_eq_true, decide_eq_true_eq] at h
  simp [wiredEntry, h.2]

theorem wiredEntry_of_not_isWired {c : Config} {opc : Byte} (h : isWired c opc = false) :
    wiredEntry c opc = .noInstr := by
  by_contra hn
  have := (isWired_iff c opc).mpr hn
  simp [h] at this

namespace Machine

/-- A fetch at an opcode that is not wired in (R115). -/
theorem fetch_unwired {s : State} (h : isWired s.cfg (s.memRead s.pc) = false) :
    s.fetch = .faulted (({ s with pc := s.pc + 1 } : State).raiseFault .unimplementedOpcode (s.memRead s.pc) s.pc) := by
  simp [State.fetch, State.fetchByte, wiredEntry_of_not_isWired h]

theorem fetch_f0 {s : State} {i : Instr} (h : wiredEntry s.cfg (s.memRead s.pc) = .f0 i) :
    s.fetch = .ready i { s with pc := s.pc + 1 } := by
  simp [State.fetch, State.fetchByte, h]

theorem fetch_f1 {s : State} {make : Byte → Instr} (h : wiredEntry s.cfg (s.memRead s.pc) = .f1 make) :
    s.fetch = .ready (make (s.memRead (s.pc + 1))) { s with pc := s.pc + 1 + 1 } := by
  simp only [State.fetch, State.fetchByte, h]
  rfl

theorem fetch_f2 {s : State} {make : Word → Instr} (h : wiredEntry s.cfg (s.memRead s.pc) = .f2 make) :
    s.fetch = .ready (make (wordOf (s.memRead (s.pc + 1 + 1)) (s.memRead (s.pc + 1))))
      { s with pc := s.pc + 1 + 1 + 1 } := by
  simp only [State.fetch, State.fetchByte, h]
  rfl

end Machine

end Sys2Proof
end

