-- ==== Sys2Proof/Laws/Operands.lean ====
section
/-! SUPPORT. Laws of the Address Resolver and its helpers: which forms have an address, a value, a target;
what the three combinators answer. -/

namespace Sys2Proof.Machine

/-- A form has an effective address exactly when its mode is not imp, acc or imm (R184). -/
theorem resolve_eq_none_iff (s : State) (o : Operand) : s.resolve o = none ↔ o.mode ∈ [.imp, .acc, .imm] := by
  cases o <;> simp [State.resolve, Operand.mode]

/-- A form has no operand value exactly when its mode is imp or acc (R185). -/
theorem readOperand_eq_none_iff (s : State) (o : Operand) : s.readOperand o = none ↔ o.mode ∈ [.imp, .acc] := by
  cases o <;> simp [State.readOperand, State.resolve, Operand.mode]

/-- A form has no read-modify-write target exactly when its mode is imp or imm (R186). -/
theorem target_eq_none_iff (s : State) (o : Operand) : s.target o = none ↔ o.mode ∈ [.imp, .imm] := by
  cases o <;> simp [State.target, State.resolve, Operand.mode]

theorem exists_resolve (s : State) {o : Operand} (h : o.mode ∉ [Mode.imp, .acc, .imm]) :
    ∃ ea, s.resolve o = some ea := by
  rw [← resolve_eq_none_iff s] at h
  exact Option.ne_none_iff_exists'.mp h

/-- A form has an operand value exactly when its mode is not imp or acc (R185). -/
theorem exists_readOperand (s : State) {o : Operand} (h : o.mode ∉ [Mode.imp, .acc]) :
    ∃ m, s.readOperand o = some m := by
  cases o <;> simp_all [State.readOperand, State.resolve, Operand.mode]

/-- What a read-modify-write form's target is (R186). -/
theorem target_cases (s : State) {o : Operand} (h : o.mode ∉ [Mode.imp, .imm]) :
    (o.mode = .acc ∧ s.target o = some .acc) ∨
      (o.mode ≠ .acc ∧ ∃ ea, s.resolve o = some ea ∧ s.target o = some (.mem ea)) := by
  cases o <;> simp_all [State.target, State.resolve, Operand.mode]

theorem withOperand_some {s : State} {o : Operand} {m : Byte} (h : s.readOperand o = some m) (opc : Byte)
    (k : Byte → State) : withOperand opc o s k = .next (k m) := by
  simp [withOperand, h]

theorem withAddress_some {s : State} {o : Operand} {ea : Word} (h : s.resolve o = some ea) (opc : Byte)
    (k : Word → State) : withAddress opc o s k = .next (k ea) := by
  simp [withAddress, h]

theorem withTarget_some {s : State} {o : Operand} {t : Target} (h : s.target o = some t) (opc : Byte)
    (k : Target → State) : withTarget opc o s k = .next (k t) := by
  simp [withTarget, h]

theorem withOperand_none {s : State} {o : Operand} (h : s.readOperand o = none) (opc : Byte)
    (k : Byte → State) : withOperand opc o s k = .next (s.raiseAddressingError opc o) := by
  simp [withOperand, h]

theorem withAddress_none {s : State} {o : Operand} (h : s.resolve o = none) (opc : Byte)
    (k : Word → State) : withAddress opc o s k = .next (s.raiseAddressingError opc o) := by
  simp [withAddress, h]

theorem withTarget_none {s : State} {o : Operand} (h : s.target o = none) (opc : Byte)
    (k : Target → State) : withTarget opc o s k = .next (s.raiseAddressingError opc o) := by
  simp [withTarget, h]

/-- The operand value depends on nothing but X, Y, PC and memory (R170, R185). -/
theorem readOperand_congr {s t : State} (hx : t.x = s.x) (hy : t.y = s.y) (hpc : t.pc = s.pc)
    (hm : t.mem = s.mem) (o : Operand) : t.readOperand o = s.readOperand o := by
  have hr : ∀ ad, t.memRead ad = s.memRead ad := fun ad => by simp [State.memRead, hm]
  cases o <;> simp [State.readOperand, State.resolve, State.memRead16, State.memReadZP16, hr, hx, hy, hpc]

end Sys2Proof.Machine
end

