-- ==== Sys2Proof/Laws/Exec.lean ====
section
/-! SUPPORT. The execute phase by mnemonic: 151 arms are 56 operations over the operand form (R114), and
which modes each group of mnemonics takes. -/

namespace Sys2Proof.Machine

/-- `op8` of an operand form (R82), 0 where it has none. -/
def op8Of : Operand → Byte
  | .imm b | .zp b | .zpx b | .zpy b | .rel b | .indx b | .indy b => b
  | .imp | .acc | .abs _ | .absx _ | .absy _ | .ind _ => 0

/-- `op16` of an operand form (R82), 0 where it has none. -/
def op16Of : Operand → Word
  | .abs w | .absx w | .absy w | .ind w => w
  | .imp | .acc | .imm _ | .zp _ | .zpx _ | .zpy _ | .rel _ | .indx _ | .indy _ => 0

/-- `Execute(mnemonic, mode, operand)` (R114), for the opcode `opc` that has them. -/
def execute (mn : Mnemonic) (opc : Byte) (o : Operand) (s : State) : Result :=
  match mn with
  | .adc => doAdc opc o s
  | .and => doAnd opc o s
  | .asl => doAsl opc o s
  | .bcc => execBcc (op8Of o) s
  | .bcs => execBcs (op8Of o) s
  | .beq => execBeq (op8Of o) s
  | .bit => doBit opc o s
  | .bmi => execBmi (op8Of o) s
  | .bne => execBne (op8Of o) s
  | .bpl => execBpl (op8Of o) s
  | .brk => execBrk s
  | .bvc => execBvc (op8Of o) s
  | .bvs => execBvs (op8Of o) s
  | .clc => execClc s
  | .cld => execCld s
  | .cli => execCli s
  | .clv => execClv s
  | .cmp => doCmp opc o s
  | .cpx => doCpx opc o s
  | .cpy => doCpy opc o s
  | .dec => doDec opc o s
  | .dex => execDex s
  | .dey => execDey s
  | .eor => doEor opc o s
  | .inc => doInc opc o s
  | .inx => execInx s
  | .iny => execIny s
  | .jmp => doJmp opc o s
  | .jsr => execJsr (op16Of o) s
  | .lda => doLda opc o s
  | .ldx => doLdx opc o s
  | .ldy => doLdy opc o s
  | .lsr => doLsr opc o s
  | .nop => execNop s
  | .ora => doOra opc o s
  | .pha => execPha s
  | .php => execPhp s
  | .pla => execPla s
  | .plp => execPlp s
  | .rol => doRol opc o s
  | .ror => doRor opc o s
  | .rti => execRti s
  | .rts => execRts s
  | .sbc => doSbc opc o s
  | .sec => execSec s
  | .sed => execSed s
  | .sei => execSei s
  | .sta => doSta opc o s
  | .stx => doStx opc o s
  | .sty => doSty opc o s
  | .tax => execTax s
  | .tay => execTay s
  | .tsx => execTsx s
  | .txa => execTxa s
  | .txs => execTxs s
  | .tya => execTya s

/-- `exec` is `execute` of the instruction's mnemonic, opcode and operand form. -/
theorem exec_eq_execute (i : Instr) (s : State) : exec i s = execute i.mnemonic i.opcode i.operand s := by
  cases i <;> rfl

/-- An instruction that reads its operand value has a mode with one (R185). -/
theorem mode_of_reader {i : Instr} (h : i.mnemonic ∈ [Mnemonic.lda, .ldx, .ldy, .adc, .sbc, .cmp, .cpx, .cpy,
    .and, .ora, .eor, .bit]) : i.operand.mode ∉ [Mode.imp, .acc] := by
  cases i <;> first
    | (simp [Instr.operand, Instr.encoding, Operand.mode]; done)
    | simp [Instr.mnemonic, Instr.encoding] at h

/-- An instruction that uses an effective address has a mode with one (R170). -/
theorem mode_of_addresser {i : Instr} (h : i.mnemonic ∈ [Mnemonic.sta, .stx, .sty, .inc, .dec, .jmp, .bcc, .bcs,
    .beq, .bmi, .bne, .bpl, .bvc, .bvs]) : i.operand.mode ∉ [Mode.imp, .acc, .imm] := by
  cases i <;> first
    | (simp [Instr.operand, Instr.encoding, Operand.mode]; done)
    | simp [Instr.mnemonic, Instr.encoding] at h

/-- A shift or rotate has a mode with a target (R186, R294). -/
theorem mode_of_shift {i : Instr} (h : i.mnemonic ∈ [Mnemonic.asl, .lsr, .rol, .ror]) :
    i.operand.mode ∉ [Mode.imp, .imm] := by
  cases i <;> first
    | (simp [Instr.operand, Instr.encoding, Operand.mode]; done)
    | simp [Instr.mnemonic, Instr.encoding] at h

/-! ## What each instruction does -/

/-- The effect of a mnemonic with operand form `o`: everything its execute phase can do to `s`. -/
def Effect (mn : Mnemonic) (o : Operand) (s t : State) : Prop :=
  match mn with
  | .lda => ∃ m, s.readOperand o = some m ∧ t = (loadA s m).updateNZ m
  | .ldx => ∃ m, s.readOperand o = some m ∧ t = (loadX s m).updateNZ m
  | .ldy => ∃ m, s.readOperand o = some m ∧ t = (loadY s m).updateNZ m
  | .sta => ∃ ea, s.resolve o = some ea ∧ t = s.memWrite ea s.a
  | .stx => ∃ ea, s.resolve o = some ea ∧ t = s.memWrite ea s.x
  | .sty => ∃ ea, s.resolve o = some ea ∧ t = s.memWrite ea s.y
  | .tax => t = (loadX s s.a).updateNZ s.a
  | .tay => t = (loadY s s.a).updateNZ s.a
  | .txa => t = (loadA s s.x).updateNZ s.x
  | .tya => t = (loadA s s.y).updateNZ s.y
  | .tsx => t = (loadX s s.sp).updateNZ s.sp
  | .txs => t = { s with sp := s.x }
  | .inc => ∃ ea, s.resolve o = some ea ∧ t = (s.memWrite ea (s.memRead ea + 1)).updateNZ (s.memRead ea + 1)
  | .dec => ∃ ea, s.resolve o = some ea ∧ t = (s.memWrite ea (s.memRead ea - 1)).updateNZ (s.memRead ea - 1)
  | .inx => t = ({ s with x := s.x + 1 } : State).updateNZ (s.x + 1)
  | .iny => t = ({ s with y := s.y + 1 } : State).updateNZ (s.y + 1)
  | .dex => t = ({ s with x := s.x - 1 } : State).updateNZ (s.x - 1)
  | .dey => t = ({ s with y := s.y - 1 } : State).updateNZ (s.y - 1)
  | .adc => ∃ m, s.readOperand o = some m ∧ t = s.addWithCarry m
  | .sbc => ∃ m, s.readOperand o = some m ∧ t = s.addWithCarry (m ^^^ 0xFF#8)
  | .cmp => ∃ m, s.readOperand o = some m ∧ t = s.compare s.a m
  | .cpx => ∃ m, s.readOperand o = some m ∧ t = s.compare s.x m
  | .cpy => ∃ m, s.readOperand o = some m ∧ t = s.compare s.y m
  | .and => ∃ m, s.readOperand o = some m ∧ t = s.setANZ (s.a &&& m)
  | .ora => ∃ m, s.readOperand o = some m ∧ t = s.setANZ (s.a ||| m)
  | .eor => ∃ m, s.readOperand o = some m ∧ t = s.setANZ (s.a ^^^ m)
  | .bit => ∃ m, s.readOperand o = some m ∧ t = ((s.updateZero (s.a &&& m)).updateNegative m).writeFlag .v (m.getLsbD 6)
  | .asl => ∃ g new, s.target o = some g ∧ new = s.readTarget g <<< 1 ∧
      t = ((s.writeFlag .c ((s.readTarget g).getLsbD 7)).writeTarget g new).updateNZ new
  | .lsr => ∃ g new, s.target o = some g ∧ new = s.readTarget g >>> 1 ∧
      t = ((s.writeFlag .c ((s.readTarget g).getLsbD 0)).writeTarget g new).updateNZ new
  | .rol => ∃ g new, s.target o = some g ∧ new = s.readTarget g <<< 1 ||| carryByte (s.flag .c) ∧
      t = ((s.writeFlag .c ((s.readTarget g).getLsbD 7)).writeTarget g new).updateNZ new
  | .ror => ∃ g new, s.target o = some g ∧ new = s.readTarget g >>> 1 ||| carryByte (s.flag .c) <<< 7 ∧
      t = ((s.writeFlag .c ((s.readTarget g).getLsbD 0)).writeTarget g new).updateNZ new
  | .pha => t = s.push s.a
  | .php => t = s.push s.pushedStatus
  | .pla => ∃ v, v = s.memRead (stackAddr (s.sp + 1)) ∧ t = ({ s with sp := s.sp + 1, a := v } : State).updateNZ v
  | .plp => t = ({ s with sp := s.sp + 1 } : State).loadStatus (s.memRead (stackAddr (s.sp + 1)))
  | .bcc => t = { s with pc := if s.flag .c = false then s.pc + sext16 (op8Of o) else s.pc }
  | .bcs => t = { s with pc := if s.flag .c = true then s.pc + sext16 (op8Of o) else s.pc }
  | .beq => t = { s with pc := if s.flag .z = true then s.pc + sext16 (op8Of o) else s.pc }
  | .bmi => t = { s with pc := if s.flag .n = true then s.pc + sext16 (op8Of o) else s.pc }
  | .bne => t = { s with pc := if s.flag .z = false then s.pc + sext16 (op8Of o) else s.pc }
  | .bpl => t = { s with pc := if s.flag .n = false then s.pc + sext16 (op8Of o) else s.pc }
  | .bvc => t = { s with pc := if s.flag .v = false then s.pc + sext16 (op8Of o) else s.pc }
  | .bvs => t = { s with pc := if s.flag .v = true then s.pc + sext16 (op8Of o) else s.pc }
  | .jmp => ∃ ea, s.resolve o = some ea ∧ t = { s with pc := ea }
  | .jsr => t = { (s.push (hiByte (s.pc - 1))).push (loByte (s.pc - 1)) with pc := op16Of o }
  | .rts => t = { s with
      sp := s.sp + 2, pc := wordOf (s.memRead (stackAddr (s.sp + 2))) (s.memRead (stackAddr (s.sp + 1))) + 1 }
  | .rti => ∃ u, u = s.loadStatus (s.memRead (stackAddr (s.sp + 1))) ∧ t = { s with
      p := u.p, sp := s.sp + 3
      pc := wordOf (s.memRead (stackAddr (s.sp + 3))) (s.memRead (stackAddr (s.sp + 2))) }
  | .brk => t = ((s.setFlag .b).setFlag .i).halt
  | .nop => t = s
  | .clc => t = s.clearFlag .c
  | .sec => t = s.setFlag .c
  | .cli => t = s.clearFlag .i
  | .sei => t = s.setFlag .i
  | .cld => t = s.clearFlag .d
  | .sed => t = s.setFlag .d
  | .clv => t = s.clearFlag .v

theorem exists_operand {i : Instr} (s : State) (h : i.mnemonic ∈ [Mnemonic.lda, .ldx, .ldy, .adc, .sbc, .cmp, .cpx,
    .cpy, .and, .ora, .eor, .bit]) : ∃ m, s.readOperand i.operand = some m :=
  exists_readOperand s (mode_of_reader h)

theorem exists_address {i : Instr} (s : State) (h : i.mnemonic ∈ [Mnemonic.sta, .stx, .sty, .inc, .dec, .jmp, .bcc,
    .bcs, .beq, .bmi, .bne, .bpl, .bvc, .bvs]) : ∃ ea, s.resolve i.operand = some ea :=
  exists_resolve s (mode_of_addresser h)

theorem exists_target {i : Instr} (s : State) (h : i.mnemonic ∈ [Mnemonic.asl, .lsr, .rol, .ror]) :
    ∃ g, s.target i.operand = some g := by
  rcases target_cases s (mode_of_shift h) with h | ⟨_, _, _, h⟩
  · exact ⟨_, h.2⟩
  · exact ⟨_, h⟩

theorem add_one_one (v : Byte) : v + 1 + 1 = v + 2 := by rw [BitVec.add_assoc]; rfl
theorem add_two_one (v : Byte) : v + 2 + 1 = v + 3 := by rw [BitVec.add_assoc]; rfl

/-- Every instruction completes in every state, with its effect and nothing else (R114): the one inversion
lemma of the execute phase. -/
theorem exec_effect (i : Instr) (s : State) : ∃ t, exec i s = .next t ∧ Effect i.mnemonic i.operand s t := by
  rw [exec_eq_execute]
  cases hmn : i.mnemonic with
  | lda =>
    obtain ⟨m, h⟩ := exists_operand (i := i) s (by rw [hmn]; decide)
    exact ⟨_, withOperand_some h _ _, m, h, rfl⟩
  | ldx =>
    obtain ⟨m, h⟩ := exists_operand (i := i) s (by rw [hmn]; decide)
    exact ⟨_, withOperand_some h _ _, m, h, rfl⟩
  | ldy =>
    obtain ⟨m, h⟩ := exists_operand (i := i) s (by rw [hmn]; decide)
    exact ⟨_, withOperand_some h _ _, m, h, rfl⟩
  | adc =>
    obtain ⟨m, h⟩ := exists_operand (i := i) s (by rw [hmn]; decide)
    exact ⟨_, withOperand_some h _ _, m, h, rfl⟩
  | sbc =>
    obtain ⟨m, h⟩ := exists_operand (i := i) s (by rw [hmn]; decide)
    exact ⟨_, withOperand_some h _ _, m, h, rfl⟩
  | cmp =>
    obtain ⟨m, h⟩ := exists_operand (i := i) s (by rw [hmn]; decide)
    exact ⟨_, withOperand_some h _ _, m, h, rfl⟩
  | cpx =>
    obtain ⟨m, h⟩ := exists_operand (i := i) s (by rw [hmn]; decide)
    exact ⟨_, withOperand_some h _ _, m, h, rfl⟩
  | cpy =>
    obtain ⟨m, h⟩ := exists_operand (i := i) s (by rw [hmn]; decide)
    exact ⟨_, withOperand_some h _ _, m, h, rfl⟩
  | and =>
    obtain ⟨m, h⟩ := exists_operand (i := i) s (by rw [hmn]; decide)
    exact ⟨_, withOperand_some h _ _, m, h, rfl⟩
  | ora =>
    obtain ⟨m, h⟩ := exists_operand (i := i) s (by rw [hmn]; decide)
    exact ⟨_, withOperand_some h _ _, m, h, rfl⟩
  | eor =>
    obtain ⟨m, h⟩ := exists_operand (i := i) s (by rw [hmn]; decide)
    exact ⟨_, withOperand_some h _ _, m, h, rfl⟩
  | bit =>
    obtain ⟨m, h⟩ := exists_operand (i := i) s (by rw [hmn]; decide)
    exact ⟨_, withOperand_some h _ _, m, h, rfl⟩
  | sta =>
    obtain ⟨ea, h⟩ := exists_address (i := i) s (by rw [hmn]; decide)
    exact ⟨_, withAddress_some h _ _, ea, h, rfl⟩
  | stx =>
    obtain ⟨ea, h⟩ := exists_address (i := i) s (by rw [hmn]; decide)
    exact ⟨_, withAddress_some h _ _, ea, h, rfl⟩
  | sty =>
    obtain ⟨ea, h⟩ := exists_address (i := i) s (by rw [hmn]; decide)
    exact ⟨_, withAddress_some h _ _, ea, h, rfl⟩
  | inc =>
    obtain ⟨ea, h⟩ := exists_address (i := i) s (by rw [hmn]; decide)
    exact ⟨_, withAddress_some h _ _, ea, h, rfl⟩
  | dec =>
    obtain ⟨ea, h⟩ := exists_address (i := i) s (by rw [hmn]; decide)
    exact ⟨_, withAddress_some h _ _, ea, h, rfl⟩
  | jmp =>
    obtain ⟨ea, h⟩ := exists_address (i := i) s (by rw [hmn]; decide)
    exact ⟨_, withAddress_some h _ _, ea, h, rfl⟩
  | asl =>
    obtain ⟨g, h⟩ := exists_target (i := i) s (by rw [hmn]; decide)
    exact ⟨_, withTarget_some h _ _, g, _, h, rfl, rfl⟩
  | lsr =>
    obtain ⟨g, h⟩ := exists_target (i := i) s (by rw [hmn]; decide)
    exact ⟨_, withTarget_some h _ _, g, _, h, rfl, rfl⟩
  | rol =>
    obtain ⟨g, h⟩ := exists_target (i := i) s (by rw [hmn]; decide)
    exact ⟨_, withTarget_some h _ _, g, _, h, rfl, rfl⟩
  | ror =>
    obtain ⟨g, h⟩ := exists_target (i := i) s (by rw [hmn]; decide)
    exact ⟨_, withTarget_some h _ _, g, _, h, rfl, rfl⟩
  | bcc => exact ⟨_, rfl, by simp only [Effect]; cases s.flag .c <;> rfl⟩
  | bcs => exact ⟨_, rfl, by simp only [Effect]; cases s.flag .c <;> rfl⟩
  | beq => exact ⟨_, rfl, by simp only [Effect]; cases s.flag .z <;> rfl⟩
  | bmi => exact ⟨_, rfl, by simp only [Effect]; cases s.flag .n <;> rfl⟩
  | bne => exact ⟨_, rfl, by simp only [Effect]; cases s.flag .z <;> rfl⟩
  | bpl => exact ⟨_, rfl, by simp only [Effect]; cases s.flag .n <;> rfl⟩
  | bvc => exact ⟨_, rfl, by simp only [Effect]; cases s.flag .v <;> rfl⟩
  | bvs => exact ⟨_, rfl, by simp only [Effect]; cases s.flag .v <;> rfl⟩
  | pla => exact ⟨_, rfl, _, rfl, rfl⟩
  | rts => exact ⟨_, rfl, by simp only [Effect, ← add_one_one]; rfl⟩
  | rti =>
    refine ⟨_, rfl, _, rfl, ?_⟩
    simp only [State.memRead, State.loadStatus_mem, State.loadStatus_sp,
      ← add_two_one, ← add_one_one, State.loadStatus_a, State.loadStatus_x, State.loadStatus_y, State.loadStatus_cfg,
      State.loadStatus_engine]
    congr 1
    exact State.loadStatus_p_congr (s := s) (t := { s with sp := s.sp + 1 }) rfl rfl _
  | plp | jsr | tax | tay | txa | tya | tsx | txs | inx | iny | dex | dey | pha | php | brk | nop | clc | sec | cli | sei | cld | sed
  | clv => exact ⟨_, rfl, rfl⟩

/-- What `exec` answers has the instruction's effect. -/
theorem effect_of_exec {i : Instr} {s t : State} (h : exec i s = .next t) : Effect i.mnemonic i.operand s t := by
  obtain ⟨u, hu, he⟩ := exec_effect i s
  rw [hu] at h
  cases h
  exact he

end Sys2Proof.Machine
end

