-- ==== Sys2Proof/Laws/PerInstr.lean ====
section
/-! SUPPORT. One statement per instruction: the entry of the opcode map at the instruction's opcode makes
the instruction from its operand bytes (R83, R84, R112). It joins the map the decoder reads to the list the
encoder reads. -/

namespace Sys2Proof.Laws.TableRow

/-- The instruction an entry makes from operand bytes. -/
def made : OpEntry → List Byte → Option Instr
  | .f0 j, [] => some j
  | .f1 make, [op8] => some (make op8)
  | .f2 make, [lo, hi] => some (make (wordOf hi lo))
  | _, _ => none

/-- The map's entry at `i`'s opcode makes `i` from `i`'s operand bytes. -/
def Statement (i : Instr) : Prop := made (opcodeEntry i.opcode) i.operand.bytes = some i

/-- The statement of an instruction, from its opcode and the map's entry there. -/
theorem row {i : Instr} (opc : Byte) (e : OpEntry) (ho : i.opcode = opc) (he : opcodeEntry opc = e)
    (hm : made e i.operand.bytes = some i) : Statement i := by
  rw [Statement, ho, he, hm]

/-- A 16-bit operand is made of its two bytes. -/
theorem word (make : Word → Instr) (a : Word) : some (make (wordOf (hiByte a) (loByte a))) = some (make a) := by
  rw [wordOf_hiByte_loByte]

theorem clc : Statement .clc := row 0x18 (.f0 .clc) rfl rfl rfl
theorem sec : Statement .sec := row 0x38 (.f0 .sec) rfl rfl rfl
theorem cli : Statement .cli := row 0x58 (.f0 .cli) rfl rfl rfl
theorem sei : Statement .sei := row 0x78 (.f0 .sei) rfl rfl rfl
theorem cld : Statement .cld := row 0xD8 (.f0 .cld) rfl rfl rfl
theorem sed : Statement .sed := row 0xF8 (.f0 .sed) rfl rfl rfl
theorem clv : Statement .clv := row 0xB8 (.f0 .clv) rfl rfl rfl
theorem ldaImm (v : Byte) : Statement (.ldaImm v) := row 0xA9 (.f1 .ldaImm) rfl rfl rfl
theorem ldaZp (z : Byte) : Statement (.ldaZp z) := row 0xA5 (.f1 .ldaZp) rfl rfl rfl
theorem ldaZpx (z : Byte) : Statement (.ldaZpx z) := row 0xB5 (.f1 .ldaZpx) rfl rfl rfl
theorem ldaAbs (a : Word) : Statement (.ldaAbs a) := row 0xAD (.f2 .ldaAbs) rfl rfl (word .ldaAbs a)
theorem ldaAbsx (a : Word) : Statement (.ldaAbsx a) := row 0xBD (.f2 .ldaAbsx) rfl rfl (word .ldaAbsx a)
theorem ldaAbsy (a : Word) : Statement (.ldaAbsy a) := row 0xB9 (.f2 .ldaAbsy) rfl rfl (word .ldaAbsy a)
theorem ldaIndx (z : Byte) : Statement (.ldaIndx z) := row 0xA1 (.f1 .ldaIndx) rfl rfl rfl
theorem ldaIndy (z : Byte) : Statement (.ldaIndy z) := row 0xB1 (.f1 .ldaIndy) rfl rfl rfl
theorem ldxImm (v : Byte) : Statement (.ldxImm v) := row 0xA2 (.f1 .ldxImm) rfl rfl rfl
theorem ldxZp (z : Byte) : Statement (.ldxZp z) := row 0xA6 (.f1 .ldxZp) rfl rfl rfl
theorem ldxZpy (z : Byte) : Statement (.ldxZpy z) := row 0xB6 (.f1 .ldxZpy) rfl rfl rfl
theorem ldxAbs (a : Word) : Statement (.ldxAbs a) := row 0xAE (.f2 .ldxAbs) rfl rfl (word .ldxAbs a)
theorem ldxAbsy (a : Word) : Statement (.ldxAbsy a) := row 0xBE (.f2 .ldxAbsy) rfl rfl (word .ldxAbsy a)
theorem ldyImm (v : Byte) : Statement (.ldyImm v) := row 0xA0 (.f1 .ldyImm) rfl rfl rfl
theorem ldyZp (z : Byte) : Statement (.ldyZp z) := row 0xA4 (.f1 .ldyZp) rfl rfl rfl
theorem ldyZpx (z : Byte) : Statement (.ldyZpx z) := row 0xB4 (.f1 .ldyZpx) rfl rfl rfl
theorem ldyAbs (a : Word) : Statement (.ldyAbs a) := row 0xAC (.f2 .ldyAbs) rfl rfl (word .ldyAbs a)
theorem ldyAbsx (a : Word) : Statement (.ldyAbsx a) := row 0xBC (.f2 .ldyAbsx) rfl rfl (word .ldyAbsx a)
theorem staZp (z : Byte) : Statement (.staZp z) := row 0x85 (.f1 .staZp) rfl rfl rfl
theorem staZpx (z : Byte) : Statement (.staZpx z) := row 0x95 (.f1 .staZpx) rfl rfl rfl
theorem staAbs (a : Word) : Statement (.staAbs a) := row 0x8D (.f2 .staAbs) rfl rfl (word .staAbs a)
theorem staAbsx (a : Word) : Statement (.staAbsx a) := row 0x9D (.f2 .staAbsx) rfl rfl (word .staAbsx a)
theorem staAbsy (a : Word) : Statement (.staAbsy a) := row 0x99 (.f2 .staAbsy) rfl rfl (word .staAbsy a)
theorem staIndx (z : Byte) : Statement (.staIndx z) := row 0x81 (.f1 .staIndx) rfl rfl rfl
theorem staIndy (z : Byte) : Statement (.staIndy z) := row 0x91 (.f1 .staIndy) rfl rfl rfl
theorem stxZp (z : Byte) : Statement (.stxZp z) := row 0x86 (.f1 .stxZp) rfl rfl rfl
theorem stxZpy (z : Byte) : Statement (.stxZpy z) := row 0x96 (.f1 .stxZpy) rfl rfl rfl
theorem stxAbs (a : Word) : Statement (.stxAbs a) := row 0x8E (.f2 .stxAbs) rfl rfl (word .stxAbs a)
theorem styZp (z : Byte) : Statement (.styZp z) := row 0x84 (.f1 .styZp) rfl rfl rfl
theorem styZpx (z : Byte) : Statement (.styZpx z) := row 0x94 (.f1 .styZpx) rfl rfl rfl
theorem styAbs (a : Word) : Statement (.styAbs a) := row 0x8C (.f2 .styAbs) rfl rfl (word .styAbs a)
theorem tax : Statement .tax := row 0xAA (.f0 .tax) rfl rfl rfl
theorem tay : Statement .tay := row 0xA8 (.f0 .tay) rfl rfl rfl
theorem txa : Statement .txa := row 0x8A (.f0 .txa) rfl rfl rfl
theorem tya : Statement .tya := row 0x98 (.f0 .tya) rfl rfl rfl
theorem tsx : Statement .tsx := row 0xBA (.f0 .tsx) rfl rfl rfl
theorem txs : Statement .txs := row 0x9A (.f0 .txs) rfl rfl rfl
theorem incZp (z : Byte) : Statement (.incZp z) := row 0xE6 (.f1 .incZp) rfl rfl rfl
theorem incZpx (z : Byte) : Statement (.incZpx z) := row 0xF6 (.f1 .incZpx) rfl rfl rfl
theorem incAbs (a : Word) : Statement (.incAbs a) := row 0xEE (.f2 .incAbs) rfl rfl (word .incAbs a)
theorem incAbsx (a : Word) : Statement (.incAbsx a) := row 0xFE (.f2 .incAbsx) rfl rfl (word .incAbsx a)
theorem decZp (z : Byte) : Statement (.decZp z) := row 0xC6 (.f1 .decZp) rfl rfl rfl
theorem decZpx (z : Byte) : Statement (.decZpx z) := row 0xD6 (.f1 .decZpx) rfl rfl rfl
theorem decAbs (a : Word) : Statement (.decAbs a) := row 0xCE (.f2 .decAbs) rfl rfl (word .decAbs a)
theorem decAbsx (a : Word) : Statement (.decAbsx a) := row 0xDE (.f2 .decAbsx) rfl rfl (word .decAbsx a)
theorem inx : Statement .inx := row 0xE8 (.f0 .inx) rfl rfl rfl
theorem iny : Statement .iny := row 0xC8 (.f0 .iny) rfl rfl rfl
theorem dex : Statement .dex := row 0xCA (.f0 .dex) rfl rfl rfl
theorem dey : Statement .dey := row 0x88 (.f0 .dey) rfl rfl rfl
theorem adcImm (v : Byte) : Statement (.adcImm v) := row 0x69 (.f1 .adcImm) rfl rfl rfl
theorem adcZp (z : Byte) : Statement (.adcZp z) := row 0x65 (.f1 .adcZp) rfl rfl rfl
theorem adcZpx (z : Byte) : Statement (.adcZpx z) := row 0x75 (.f1 .adcZpx) rfl rfl rfl
theorem adcAbs (a : Word) : Statement (.adcAbs a) := row 0x6D (.f2 .adcAbs) rfl rfl (word .adcAbs a)
theorem adcAbsx (a : Word) : Statement (.adcAbsx a) := row 0x7D (.f2 .adcAbsx) rfl rfl (word .adcAbsx a)
theorem adcAbsy (a : Word) : Statement (.adcAbsy a) := row 0x79 (.f2 .adcAbsy) rfl rfl (word .adcAbsy a)
theorem adcIndx (z : Byte) : Statement (.adcIndx z) := row 0x61 (.f1 .adcIndx) rfl rfl rfl
theorem adcIndy (z : Byte) : Statement (.adcIndy z) := row 0x71 (.f1 .adcIndy) rfl rfl rfl
theorem sbcImm (v : Byte) : Statement (.sbcImm v) := row 0xE9 (.f1 .sbcImm) rfl rfl rfl
theorem sbcZp (z : Byte) : Statement (.sbcZp z) := row 0xE5 (.f1 .sbcZp) rfl rfl rfl
theorem sbcZpx (z : Byte) : Statement (.sbcZpx z) := row 0xF5 (.f1 .sbcZpx) rfl rfl rfl
theorem sbcAbs (a : Word) : Statement (.sbcAbs a) := row 0xED (.f2 .sbcAbs) rfl rfl (word .sbcAbs a)
theorem sbcAbsx (a : Word) : Statement (.sbcAbsx a) := row 0xFD (.f2 .sbcAbsx) rfl rfl (word .sbcAbsx a)
theorem sbcAbsy (a : Word) : Statement (.sbcAbsy a) := row 0xF9 (.f2 .sbcAbsy) rfl rfl (word .sbcAbsy a)
theorem sbcIndx (z : Byte) : Statement (.sbcIndx z) := row 0xE1 (.f1 .sbcIndx) rfl rfl rfl
theorem sbcIndy (z : Byte) : Statement (.sbcIndy z) := row 0xF1 (.f1 .sbcIndy) rfl rfl rfl
theorem cmpImm (v : Byte) : Statement (.cmpImm v) := row 0xC9 (.f1 .cmpImm) rfl rfl rfl
theorem cmpZp (z : Byte) : Statement (.cmpZp z) := row 0xC5 (.f1 .cmpZp) rfl rfl rfl
theorem cmpZpx (z : Byte) : Statement (.cmpZpx z) := row 0xD5 (.f1 .cmpZpx) rfl rfl rfl
theorem cmpAbs (a : Word) : Statement (.cmpAbs a) := row 0xCD (.f2 .cmpAbs) rfl rfl (word .cmpAbs a)
theorem cmpAbsx (a : Word) : Statement (.cmpAbsx a) := row 0xDD (.f2 .cmpAbsx) rfl rfl (word .cmpAbsx a)
theorem cmpAbsy (a : Word) : Statement (.cmpAbsy a) := row 0xD9 (.f2 .cmpAbsy) rfl rfl (word .cmpAbsy a)
theorem cmpIndx (z : Byte) : Statement (.cmpIndx z) := row 0xC1 (.f1 .cmpIndx) rfl rfl rfl
theorem cmpIndy (z : Byte) : Statement (.cmpIndy z) := row 0xD1 (.f1 .cmpIndy) rfl rfl rfl
theorem cpxImm (v : Byte) : Statement (.cpxImm v) := row 0xE0 (.f1 .cpxImm) rfl rfl rfl
theorem cpxZp (z : Byte) : Statement (.cpxZp z) := row 0xE4 (.f1 .cpxZp) rfl rfl rfl
theorem cpxAbs (a : Word) : Statement (.cpxAbs a) := row 0xEC (.f2 .cpxAbs) rfl rfl (word .cpxAbs a)
theorem cpyImm (v : Byte) : Statement (.cpyImm v) := row 0xC0 (.f1 .cpyImm) rfl rfl rfl
theorem cpyZp (z : Byte) : Statement (.cpyZp z) := row 0xC4 (.f1 .cpyZp) rfl rfl rfl
theorem cpyAbs (a : Word) : Statement (.cpyAbs a) := row 0xCC (.f2 .cpyAbs) rfl rfl (word .cpyAbs a)
theorem andImm (v : Byte) : Statement (.andImm v) := row 0x29 (.f1 .andImm) rfl rfl rfl
theorem andZp (z : Byte) : Statement (.andZp z) := row 0x25 (.f1 .andZp) rfl rfl rfl
theorem andZpx (z : Byte) : Statement (.andZpx z) := row 0x35 (.f1 .andZpx) rfl rfl rfl
theorem andAbs (a : Word) : Statement (.andAbs a) := row 0x2D (.f2 .andAbs) rfl rfl (word .andAbs a)
theorem andAbsx (a : Word) : Statement (.andAbsx a) := row 0x3D (.f2 .andAbsx) rfl rfl (word .andAbsx a)
theorem andAbsy (a : Word) : Statement (.andAbsy a) := row 0x39 (.f2 .andAbsy) rfl rfl (word .andAbsy a)
theorem andIndx (z : Byte) : Statement (.andIndx z) := row 0x21 (.f1 .andIndx) rfl rfl rfl
theorem andIndy (z : Byte) : Statement (.andIndy z) := row 0x31 (.f1 .andIndy) rfl rfl rfl
theorem oraImm (v : Byte) : Statement (.oraImm v) := row 0x09 (.f1 .oraImm) rfl rfl rfl
theorem oraZp (z : Byte) : Statement (.oraZp z) := row 0x05 (.f1 .oraZp) rfl rfl rfl
theorem oraZpx (z : Byte) : Statement (.oraZpx z) := row 0x15 (.f1 .oraZpx) rfl rfl rfl
theorem oraAbs (a : Word) : Statement (.oraAbs a) := row 0x0D (.f2 .oraAbs) rfl rfl (word .oraAbs a)
theorem oraAbsx (a : Word) : Statement (.oraAbsx a) := row 0x1D (.f2 .oraAbsx) rfl rfl (word .oraAbsx a)
theorem oraAbsy (a : Word) : Statement (.oraAbsy a) := row 0x19 (.f2 .oraAbsy) rfl rfl (word .oraAbsy a)
theorem oraIndx (z : Byte) : Statement (.oraIndx z) := row 0x01 (.f1 .oraIndx) rfl rfl rfl
theorem oraIndy (z : Byte) : Statement (.oraIndy z) := row 0x11 (.f1 .oraIndy) rfl rfl rfl
theorem eorImm (v : Byte) : Statement (.eorImm v) := row 0x49 (.f1 .eorImm) rfl rfl rfl
theorem eorZp (z : Byte) : Statement (.eorZp z) := row 0x45 (.f1 .eorZp) rfl rfl rfl
theorem eorZpx (z : Byte) : Statement (.eorZpx z) := row 0x55 (.f1 .eorZpx) rfl rfl rfl
theorem eorAbs (a : Word) : Statement (.eorAbs a) := row 0x4D (.f2 .eorAbs) rfl rfl (word .eorAbs a)
theorem eorAbsx (a : Word) : Statement (.eorAbsx a) := row 0x5D (.f2 .eorAbsx) rfl rfl (word .eorAbsx a)
theorem eorAbsy (a : Word) : Statement (.eorAbsy a) := row 0x59 (.f2 .eorAbsy) rfl rfl (word .eorAbsy a)
theorem eorIndx (z : Byte) : Statement (.eorIndx z) := row 0x41 (.f1 .eorIndx) rfl rfl rfl
theorem eorIndy (z : Byte) : Statement (.eorIndy z) := row 0x51 (.f1 .eorIndy) rfl rfl rfl
theorem bitZp (z : Byte) : Statement (.bitZp z) := row 0x24 (.f1 .bitZp) rfl rfl rfl
theorem bitAbs (a : Word) : Statement (.bitAbs a) := row 0x2C (.f2 .bitAbs) rfl rfl (word .bitAbs a)
theorem aslAcc : Statement .aslAcc := row 0x0A (.f0 .aslAcc) rfl rfl rfl
theorem aslZp (z : Byte) : Statement (.aslZp z) := row 0x06 (.f1 .aslZp) rfl rfl rfl
theorem aslZpx (z : Byte) : Statement (.aslZpx z) := row 0x16 (.f1 .aslZpx) rfl rfl rfl
theorem aslAbs (a : Word) : Statement (.aslAbs a) := row 0x0E (.f2 .aslAbs) rfl rfl (word .aslAbs a)
theorem aslAbsx (a : Word) : Statement (.aslAbsx a) := row 0x1E (.f2 .aslAbsx) rfl rfl (word .aslAbsx a)
theorem lsrAcc : Statement .lsrAcc := row 0x4A (.f0 .lsrAcc) rfl rfl rfl
theorem lsrZp (z : Byte) : Statement (.lsrZp z) := row 0x46 (.f1 .lsrZp) rfl rfl rfl
theorem lsrZpx (z : Byte) : Statement (.lsrZpx z) := row 0x56 (.f1 .lsrZpx) rfl rfl rfl
theorem lsrAbs (a : Word) : Statement (.lsrAbs a) := row 0x4E (.f2 .lsrAbs) rfl rfl (word .lsrAbs a)
theorem lsrAbsx (a : Word) : Statement (.lsrAbsx a) := row 0x5E (.f2 .lsrAbsx) rfl rfl (word .lsrAbsx a)
theorem rolAcc : Statement .rolAcc := row 0x2A (.f0 .rolAcc) rfl rfl rfl
theorem rolZp (z : Byte) : Statement (.rolZp z) := row 0x26 (.f1 .rolZp) rfl rfl rfl
theorem rolZpx (z : Byte) : Statement (.rolZpx z) := row 0x36 (.f1 .rolZpx) rfl rfl rfl
theorem rolAbs (a : Word) : Statement (.rolAbs a) := row 0x2E (.f2 .rolAbs) rfl rfl (word .rolAbs a)
theorem rolAbsx (a : Word) : Statement (.rolAbsx a) := row 0x3E (.f2 .rolAbsx) rfl rfl (word .rolAbsx a)
theorem rorAcc : Statement .rorAcc := row 0x6A (.f0 .rorAcc) rfl rfl rfl
theorem rorZp (z : Byte) : Statement (.rorZp z) := row 0x66 (.f1 .rorZp) rfl rfl rfl
theorem rorZpx (z : Byte) : Statement (.rorZpx z) := row 0x76 (.f1 .rorZpx) rfl rfl rfl
theorem rorAbs (a : Word) : Statement (.rorAbs a) := row 0x6E (.f2 .rorAbs) rfl rfl (word .rorAbs a)
theorem rorAbsx (a : Word) : Statement (.rorAbsx a) := row 0x7E (.f2 .rorAbsx) rfl rfl (word .rorAbsx a)
theorem pha : Statement .pha := row 0x48 (.f0 .pha) rfl rfl rfl
theorem php : Statement .php := row 0x08 (.f0 .php) rfl rfl rfl
theorem pla : Statement .pla := row 0x68 (.f0 .pla) rfl rfl rfl
theorem plp : Statement .plp := row 0x28 (.f0 .plp) rfl rfl rfl
theorem bcc (d : Byte) : Statement (.bcc d) := row 0x90 (.f1 .bcc) rfl rfl rfl
theorem bcs (d : Byte) : Statement (.bcs d) := row 0xB0 (.f1 .bcs) rfl rfl rfl
theorem beq (d : Byte) : Statement (.beq d) := row 0xF0 (.f1 .beq) rfl rfl rfl
theorem bmi (d : Byte) : Statement (.bmi d) := row 0x30 (.f1 .bmi) rfl rfl rfl
theorem bne (d : Byte) : Statement (.bne d) := row 0xD0 (.f1 .bne) rfl rfl rfl
theorem bpl (d : Byte) : Statement (.bpl d) := row 0x10 (.f1 .bpl) rfl rfl rfl
theorem bvc (d : Byte) : Statement (.bvc d) := row 0x50 (.f1 .bvc) rfl rfl rfl
theorem bvs (d : Byte) : Statement (.bvs d) := row 0x70 (.f1 .bvs) rfl rfl rfl
theorem jmpAbs (a : Word) : Statement (.jmpAbs a) := row 0x4C (.f2 .jmpAbs) rfl rfl (word .jmpAbs a)
theorem jmpInd (a : Word) : Statement (.jmpInd a) := row 0x6C (.f2 .jmpInd) rfl rfl (word .jmpInd a)
theorem jsr (a : Word) : Statement (.jsr a) := row 0x20 (.f2 .jsr) rfl rfl (word .jsr a)
theorem rts : Statement .rts := row 0x60 (.f0 .rts) rfl rfl rfl
theorem rti : Statement .rti := row 0x40 (.f0 .rti) rfl rfl rfl
theorem brk : Statement .brk := row 0x00 (.f0 .brk) rfl rfl rfl
theorem nop : Statement .nop := row 0xEA (.f0 .nop) rfl rfl rfl

end Sys2Proof.Laws.TableRow
end

