-- ==== Sys2Proof/Laws/Step.lean ====
section
/-! SUPPORT. The inversion lemma of one step, and the flag and frame facts of the shared result
operations in the terms of Safety. -/

namespace Sys2Proof.Machine

/-! ## Results -/

theorem nzFrom_updateNZ (s : State) (v : Byte) : NZFrom v (s.updateNZ v) := by
  by_cases h : v = 0#8 <;> simp [NZFrom, flag_updateNZ, h]

theorem flagsKeptBut_updateNZ (s : State) (v : Byte) : FlagsKeptBut [.n, .z] s (s.updateNZ v) := by
  refine ⟨by simp, fun f h1 h2 => ?_⟩
  simp only [List.mem_cons, List.not_mem_nil, or_false, not_or] at h2
  simp [flag_updateNZ, h1, h2]

/-- A form that stores a byte and then sets N and Z (R232, R233). -/
theorem storedAt_memWrite_updateNZ (s : State) (ea : Word) (v : Byte) :
    StoredAt ea v s ((s.memWrite ea v).updateNZ v) := by
  refine ⟨(State.updateNZ_eq _ _).trans (by simp), fun h => ?_, fun ad had => ?_⟩
  · simp [State.memRead_memWrite_same _ _ _ h]
  · simp [State.memRead_memWrite_other s v (show ad ≠ ea by simpa using had)]

/-! ## What no instruction does -/

/-- No instruction changes the parameters; BRK halts and no other instruction changes the engine state. -/
theorem Effect.cfg_engine {mn : Mnemonic} {o : Operand} {s t : State} (h : Effect mn o s t) :
    t.cfg = s.cfg ∧ t.engine = if mn = .brk then .halted else s.engine := by
  cases mn <;> simp only [Effect] at h <;> first
    | (subst h; simp [loadX, loadA, loadY])
    | (obtain ⟨m, -, rfl⟩ := h; simp [loadX, loadA, loadY])
    | (obtain ⟨g, new, -, -, rfl⟩ := h; cases g <;> simp [State.writeTarget])

/-- Every instruction keeps the canonical form of memory. -/
theorem Effect.memory_wf {mn : Mnemonic} {o : Operand} {s t : State} (h : Effect mn o s t)
    (hw : s.mem.wf = true) : t.mem.wf = true := by
  cases mn <;> simp only [Effect] at h <;> first
    | (subst h; simpa [loadX, loadA, loadY] using hw)
    | (subst h; exact State.wf_push _ _ hw)
    | (subst h; exact State.wf_push _ _ (State.wf_push _ _ hw))
    | (obtain ⟨m, -, rfl⟩ := h; simpa [loadX, loadA, loadY] using hw)
    | (obtain ⟨ea, -, rfl⟩ := h; simpa using State.wf_memWrite s ea _ hw)
    | (obtain ⟨g, new, -, -, rfl⟩ := h; simpa using State.wf_writeTarget _ g _ (by simpa using hw))

/-! ## One step -/

/-- The two ways a step of a Running engine goes (R111): the opcode byte is not wired in, or the step has
the effect of an instruction with that opcode, from the state with PC past it. -/
theorem step_running {s : State} (hr : s.engine = .running) :
    (isWired s.cfg (s.memRead s.pc) = false ∧
      step s = .next (({ s with pc := s.pc + 1 } : State).raiseFault .unimplementedOpcode (s.memRead s.pc) s.pc)) ∨
    (isWired s.cfg (s.memRead s.pc) = true ∧ ∃ (i : Instr) (pc : Word) (t : State),
      i.opcode = s.memRead s.pc ∧ step s = .next t ∧ Effect i.mnemonic i.operand { s with pc := pc } t ∧
        pc = s.pc + BitVec.ofNat 16 i.length) := by
  cases hw : isWired s.cfg (s.memRead s.pc) with
  | false => exact .inl ⟨rfl, by simp only [step, hr, fetch_unwired hw]⟩
  | true =>
    have hwe := wiredEntry_of_isWired hw
    have a2 : s.pc + 1 + 1 = s.pc + 2 := by rw [BitVec.add_assoc]; rfl
    have a3 : s.pc + 2 + 1 = s.pc + 3 := by rw [BitVec.add_assoc]; rfl
    have key : ∀ (i : Instr) (rest : List Byte) (pc : Word), encode i = s.memRead s.pc :: rest →
        pc = s.pc + BitVec.ofNat 16 (1 + rest.length) → s.fetch = .ready i { s with pc := pc } →
        true = true ∧ ∃ (i : Instr) (pc : Word) (t : State),
          i.opcode = s.memRead s.pc ∧ step s = .next t ∧ Effect i.mnemonic i.operand { s with pc := pc } t ∧
            pc = s.pc + BitVec.ofNat 16 i.length := by
      intro i rest pc he hpc hf
      obtain ⟨t, ht, hE⟩ := exec_effect i { s with pc := pc }
      have hl : i.length = 1 + rest.length := by rw [← length_encode, he]; simp [Nat.add_comm]
      refine ⟨rfl, i, pc, t, ?_, ?_, hE, by rw [hl, hpc]⟩
      · simpa [encode] using congrArg List.head? he
      · unfold step
        rw [hr]
        simp only [hf, ht]
    cases hn : opcodeEntry (s.memRead s.pc) with
    | noInstr => exact absurd (hwe.trans hn) ((isWired_iff _ _).mp hw)
    | f0 i => exact .inr (key i [] _ (encode_f0 hn) rfl (fetch_f0 (hwe.trans hn)))
    | f1 make => exact .inr (key _ _ _ (encode_f1 hn _) a2 (fetch_f1 (hwe.trans hn)))
    | f2 make =>
      exact .inr (key _ _ _ (encode_f2 hn _) (by rw [a2, a3]; rfl) (fetch_f2 (hwe.trans hn)))

/-- One step of the host's own stepping. -/
theorem core_run_succ {s t : State} (n : Nat) (h : step s = .next t) :
    Sys2Proof.core.run (n + 1) s = Sys2Proof.core.run n t := by
  have h' : Sys2Proof.core.step s = .next t := h
  have hr := Host.Core.run.eq_2 Sys2Proof.core s n
  rw [h'] at hr
  exact hr

end Sys2Proof.Machine
end

