-- ==== Sys2Proof/Tests/Slice0.lean ====
section
/-! SUPPORT. Tests of the model: expected values are the spec's own (95_test_vectors.md, 30_encoding.md),
or computed by hand from the rule named. The `witness_` theorems show that each obligation's hypotheses
are met, by the obligation's name. -/

namespace Sys2Proof.Tests

open Sys2Proof Sys2Proof.Machine

-- one theorem after another: each holds a thread while the kernel evaluates it
set_option Elab.async false

/-- The start state of the spec's vectors (95_test_vectors.md section 2.2), with the cells given in memory. -/
def base (cells : List Host.Cell) : State :=
  ({ pc := 0x0200, sp := 0xFF, a := 0x00, x := 0x00, y := 0x00, p := 0x20, engine := .running, mem := [],
     cfg := Config.standard } : State).loadImage cells

/-- One step goes from `s` to `t`. -/
def goes (s t : State) : Bool :=
  match step s with
  | .next u => decide (u = t)
  | .fault _ => false
  | .refused _ => false

/-- An execute phase ends in a next state with the property. -/
def ends (r : Result) (p : State → Bool) : Bool :=
  match r with
  | .next t => p t
  | .fault _ => false
  | .refused _ => false

/-! ## Well-formedness: one ill-formed term for each check -/

/-- IMPLEMENTED without BRK (R9). -/
theorem test_wf_refuses_without_brk : Config.wf { layout := .ascending, implemented := [0xA9] } = false := by decide

/-- IMPLEMENTED without LDA immediate (R9). -/
theorem test_wf_refuses_without_ldaImm : Config.wf { layout := .ascending, implemented := [0x00] } = false := by decide

/-- IMPLEMENTED with a byte that is no opcode (R9, R85). -/
theorem test_wf_refuses_undefined_byte :
    Config.wf { layout := .ascending, implemented := [0x00, 0x02, 0xA9] } = false := by decide +kernel

/-- A set written out of order, or with a repeat. -/
theorem test_wf_refuses_unsorted :
    Config.wf { layout := .ascending, implemented := [0xA9, 0x00] } = false ∧
    Config.wf { layout := .ascending, implemented := [0x00, 0x00, 0xA9] } = false := by decide +kernel

/-- The source's minimum, and the default of all 151 opcodes (R9). -/
theorem test_wf_accepts :
    Config.wf { layout := .literal, implemented := [0x00, 0xA9] } = true ∧ Config.standard.wf = true ∧
    documentedOpcodes.length = 151 := by decide +kernel

/-- An instruction that is not wired in is ill-formed for that engine (R9, R86). -/
theorem test_wf_refuses_unwired_instruction :
    Instr.wellFormed { layout := .ascending, implemented := [0x00, 0xA9] } (.ldaAbs 0x1000) = false ∧
    Instr.wellFormed { layout := .ascending, implemented := [0x00, 0xA9] } (.ldaImm 0x10) = true ∧
    Instr.wellFormed Config.standard (.ldaAbs 0x1000) = true := by decide +kernel

/-- Memory outside the canonical form: out of order, a listed 0x00, an address past 0xFFFF. -/
theorem test_memory_wf_refuses :
    Memory.wf [(5, 1), (4, 1)] = false ∧ Memory.wf [(5, 0)] = false ∧ Memory.wf [(65536, 1)] = false ∧
    Memory.wf [(4, 1), (65535, 2)] = true := by decide

/-- Writing what an unlisted address reads as removes the cell. -/
theorem test_memory_write_removes :
    Memory.write [(4, 1), (5, 2)] 4 0x00 = [(5, 2)] ∧ Memory.write [(4, 1)] 5 0x00 = [(4, 1)] := by decide

/-! ## Decoding: words written out from 30_encoding.md, beside those of the obligation `DecodeWords` -/

/-- cc = 01, the eight modes of ORA and the row aaa = 101 of LDA (R84). -/
theorem test_decode_words_cc01 :
    [decode [0b00000101, 0x10], decode [0b00010001, 0x10]] = [.ok (.oraZp 0x10, []), .ok (.oraIndy 0x10, [])] ∧
    decode [0b10101101, 0x34, 0x12] = .ok (.ldaAbs 0x1234, []) ∧
    decode [0b10111001, 0x34, 0x12] = .ok (.ldaAbsy 0x1234, []) := by decide +kernel

/-- cc = 10 with its exceptions: STX and LDX index by Y (R84, R176). -/
theorem test_decode_words_cc10 :
    decode [0b10010110, 0x10] = .ok (.stxZpy 0x10, []) ∧ decode [0b10111110, 0x34, 0x12] = .ok (.ldxAbsy 0x1234, []) ∧
    decode [0b00001010] = .ok (.aslAcc, []) ∧ decode [0b11001010] = .ok (.dex, []) := by decide +kernel

/-- cc = 00: branches, jumps, stack and flags (R84). -/
theorem test_decode_words_cc00 :
    decode [0b01010000, 0x80] = .ok (.bvc 0x80, []) ∧ decode [0b01001100, 0xFF, 0x12] = .ok (.jmpAbs 0x12FF, []) ∧
    decode [0b01000000] = .ok (.rti, []) ∧ decode [0b10111000] = .ok (.clv, []) ∧
    decode [0b11101100, 0x34, 0x12] = .ok (.cpxAbs 0x1234, []) := by decide +kernel

/-- Refusals by name, and bytes left over. -/
theorem test_decode_edges :
    decode [] = .error .noBytes ∧ decode [0x02, 0, 0] = .error (.unimplemented 0x02) ∧
    decode [0xAD, 0x34] = .error (.truncated 0xAD) ∧
    decode [0xA9, 0x10, 0x00] = .ok (.ldaImm 0x10, [0x00]) := by decide +kernel

/-- The table's numbering: the first byte is bits 7..0; bits above nbits are 0. -/
theorem test_decodeTableWord :
    decodeTableWord 24 0x1234AD = some (.ldaAbs 0x1234) ∧ decodeTableWord 8 0xFFFFAD = some (.ldaAbs 0x0000) ∧
    decodeTableWord 16 0x10A9 = some (.ldaImm 0x10) ∧ decodeTableWord 8 0x02 = none := by decide +kernel

/-- A word placed after reset is the first instruction that runs: LDA #$80. -/
theorem test_withFetchWord :
    goes (State.reset.withFetchWord 16 0x80A9)
      { State.reset with a := 0x80, p := 0xA8, pc := 0x0002, mem := [(0, 0xA9), (1, 0x80)] } = true := by
  decide +kernel

/-! ## The spec's vectors, one step each -/

/-- V1, CLC. -/
theorem test_v1_clc : goes
    ({ base [(0x0200, 0x18)] with p := 0xFF })
    ({ base [(0x0200, 0x18)] with p := 0xFE, pc := 0x0201 }) = true := by decide +kernel

/-- V2, SEC. -/
theorem test_v2_sec : goes
    ({ base [(0x0200, 0x38)] with p := 0x20 })
    ({ base [(0x0200, 0x38)] with p := 0x21, pc := 0x0201 }) = true := by decide +kernel

/-- V3, CLI. -/
theorem test_v3_cli : goes
    ({ base [(0x0200, 0x58)] with p := 0x24 })
    ({ base [(0x0200, 0x58)] with p := 0x20, pc := 0x0201 }) = true := by decide +kernel

/-- V4, SEI. -/
theorem test_v4_sei : goes
    ({ base [(0x0200, 0x78)] with p := 0x20 })
    ({ base [(0x0200, 0x78)] with p := 0x24, pc := 0x0201 }) = true := by decide +kernel

/-- V5, CLD (after reset). -/
theorem test_v5_cld : goes
    ({ base [(0x0200, 0xD8)] with p := 0x28 })
    ({ base [(0x0200, 0xD8)] with p := 0x20, pc := 0x0201 }) = true := by decide +kernel

/-- V6, SED. -/
theorem test_v6_sed : goes
    ({ base [(0x0200, 0xF8)] with p := 0x20 })
    ({ base [(0x0200, 0xF8)] with p := 0x28, pc := 0x0201 }) = true := by decide +kernel

/-- V7, CLV. -/
theorem test_v7_clv : goes
    ({ base [(0x0200, 0xB8)] with p := 0x60 })
    ({ base [(0x0200, 0xB8)] with p := 0x20, pc := 0x0201 }) = true := by decide +kernel

/-- V8, LDA #$00. -/
theorem test_v8_ldaImm : goes
    ({ base [(0x0200, 0xA9), (0x0201, 0x00)] with a := 0x55 })
    ({ base [(0x0200, 0xA9), (0x0201, 0x00)] with a := 0x00, p := 0x22, pc := 0x0202 }) = true := by decide +kernel

/-- V12, LDA $F0,X (zp wrap). -/
theorem test_v12_ldaZpx : goes
    ({ base [(0x0200, 0xB5), (0x0201, 0xF0), (0x0010, 0x99)] with x := 0x20 })
    ({ base [(0x0200, 0xB5), (0x0201, 0xF0), (0x0010, 0x99)] with x := 0x20, a := 0x99, p := 0xA0, pc := 0x0202 }) = true := by decide +kernel

/-- V14, LDA $FFFF,Y (16-bit wrap). -/
theorem test_v14_ldaAbsy : goes
    ({ base [(0x0200, 0xB9), (0x0201, 0xFF), (0x0202, 0xFF), (0x0001, 0x77)] with y := 0x02 })
    ({ base [(0x0200, 0xB9), (0x0201, 0xFF), (0x0202, 0xFF), (0x0001, 0x77)] with y := 0x02, a := 0x77, pc := 0x0203 }) = true := by decide +kernel

/-- V15, LDA ($FF,X) (pointer wraps in page 0). -/
theorem test_v15_ldaIndx : goes
    ({ base [(0x0200, 0xA1), (0x0201, 0xFF), (0x00FF, 0x34), (0x0000, 0x12), (0x1234, 0xAB)] with x := 0x00 })
    ({ base [(0x0200, 0xA1), (0x0201, 0xFF), (0x00FF, 0x34), (0x0000, 0x12), (0x1234, 0xAB)] with x := 0x00, a := 0xAB, p := 0xA0, pc := 0x0202 }) = true := by decide +kernel

/-- V18, LDA ($FF),Y (pointer wraps). -/
theorem test_v18_ldaIndy : goes
    ({ base [(0x0200, 0xB1), (0x0201, 0xFF), (0x00FF, 0xFF), (0x0000, 0xFF)] with y := 0x01 })
    ({ base [(0x0200, 0xB1), (0x0201, 0xFF), (0x00FF, 0xFF), (0x0000, 0xFF)] with y := 0x01, a := 0xFF, p := 0xA0, pc := 0x0202 }) = true := by decide +kernel

/-- V20, LDX $F0,Y (zpy wrap). -/
theorem test_v20_ldxZpy : goes
    ({ base [(0x0200, 0xB6), (0x0201, 0xF0), (0x0001, 0x81)] with y := 0x11 })
    ({ base [(0x0200, 0xB6), (0x0201, 0xF0), (0x0001, 0x81)] with y := 0x11, x := 0x81, p := 0xA0, pc := 0x0202 }) = true := by decide +kernel

/-- V22, LDY #$FF. -/
theorem test_v22_ldyImm : goes
    (base [(0x0200, 0xA0), (0x0201, 0xFF)])
    ({ base [(0x0200, 0xA0), (0x0201, 0xFF)] with y := 0xFF, p := 0xA0, pc := 0x0202 }) = true := by decide +kernel

/-- V23, LDY $80,X. -/
theorem test_v23_ldyZpx : goes
    ({ base [(0x0200, 0xB4), (0x0201, 0x80), (0x0010, 0x00)] with x := 0x90 })
    ({ base [(0x0200, 0xB4), (0x0201, 0x80), (0x0010, 0x00)] with x := 0x90, p := 0x22, pc := 0x0202 }) = true := by decide +kernel

/-- V26, STA $FFFF,X (16-bit wrap). -/
theorem test_v26_staAbsx : goes
    ({ base [(0x0200, 0x9D), (0x0201, 0xFF), (0x0202, 0xFF)] with a := 0x22, x := 0x01 })
    ({ base [(0x0200, 0x9D), (0x0201, 0xFF), (0x0202, 0xFF), (0x0000, 0x22)] with a := 0x22, x := 0x01, pc := 0x0203 }) = true := by decide +kernel

/-- V27, STA ($40),Y. -/
theorem test_v27_staIndy : goes
    ({ base [(0x0200, 0x91), (0x0201, 0x40), (0x0040, 0x00), (0x0041, 0x04)] with a := 0x33, y := 0x04 })
    ({ base [(0x0200, 0x91), (0x0201, 0x40), (0x0040, 0x00), (0x0041, 0x04), (0x0404, 0x33)] with a := 0x33, y := 0x04, pc := 0x0202 }) = true := by decide +kernel

/-- V29, STX $10,Y. -/
theorem test_v29_stxZpy : goes
    ({ base [(0x0200, 0x96), (0x0201, 0x10)] with x := 0x01, y := 0xF5 })
    ({ base [(0x0200, 0x96), (0x0201, 0x10), (0x0005, 0x01)] with x := 0x01, y := 0xF5, pc := 0x0202 }) = true := by decide +kernel

/-- V30, STY $10,X. -/
theorem test_v30_styZpx : goes
    ({ base [(0x0200, 0x94), (0x0201, 0x10)] with y := 0x02, x := 0x01 })
    ({ base [(0x0200, 0x94), (0x0201, 0x10), (0x0011, 0x02)] with y := 0x02, x := 0x01, pc := 0x0202 }) = true := by decide +kernel

/-- V31, TAX (A=0). -/
theorem test_v31_tax : goes
    ({ base [(0x0200, 0xAA)] with a := 0x00, x := 0x55 })
    ({ base [(0x0200, 0xAA)] with a := 0x00, x := 0x00, p := 0x22, pc := 0x0201 }) = true := by decide +kernel

/-- V32, TAY. -/
theorem test_v32_tay : goes
    ({ base [(0x0200, 0xA8)] with a := 0x90 })
    ({ base [(0x0200, 0xA8)] with a := 0x90, y := 0x90, p := 0xA0, pc := 0x0201 }) = true := by decide +kernel

/-- V33, TXA. -/
theorem test_v33_txa : goes
    ({ base [(0x0200, 0x8A)] with x := 0x01, a := 0x80 })
    ({ base [(0x0200, 0x8A)] with x := 0x01, a := 0x01, pc := 0x0201 }) = true := by decide +kernel

/-- V34, TYA. -/
theorem test_v34_tya : goes
    ({ base [(0x0200, 0x98)] with y := 0xFF })
    ({ base [(0x0200, 0x98)] with y := 0xFF, a := 0xFF, p := 0xA0, pc := 0x0201 }) = true := by decide +kernel

/-- V35, TSX. -/
theorem test_v35_tsx : goes
    ({ base [(0x0200, 0xBA)] with sp := 0x00 })
    ({ base [(0x0200, 0xBA)] with sp := 0x00, p := 0x22, pc := 0x0201 }) = true := by decide +kernel

/-- V36, TXS (no flags). -/
theorem test_v36_txs : goes
    ({ base [(0x0200, 0x9A)] with x := 0x80, p := 0x22 })
    ({ base [(0x0200, 0x9A)] with x := 0x80, p := 0x22, sp := 0x80, pc := 0x0201 }) = true := by decide +kernel

/-- V37, INX X=0xFF (source §8). -/
theorem test_v37_inx : goes
    ({ base [(0x0200, 0xE8)] with x := 0xFF })
    ({ base [(0x0200, 0xE8)] with x := 0x00, p := 0x22, pc := 0x0201 }) = true := by decide +kernel

/-- V39, INY Y=0xFF. -/
theorem test_v39_iny : goes
    ({ base [(0x0200, 0xC8)] with y := 0xFF })
    ({ base [(0x0200, 0xC8)] with y := 0x00, p := 0x22, pc := 0x0201 }) = true := by decide +kernel

/-- V40, DEX X=0x00. -/
theorem test_v40_dex : goes
    ({ base [(0x0200, 0xCA)] with x := 0x00 })
    ({ base [(0x0200, 0xCA)] with x := 0xFF, p := 0xA0, pc := 0x0201 }) = true := by decide +kernel

/-- V42, DEY Y=0x80. -/
theorem test_v42_dey : goes
    ({ base [(0x0200, 0x88)] with y := 0x80 })
    ({ base [(0x0200, 0x88)] with y := 0x7F, pc := 0x0201 }) = true := by decide +kernel

/-- V44, INC $FF,X (zp wrap). -/
theorem test_v44_incZpx : goes
    ({ base [(0x0200, 0xF6), (0x0201, 0xFF), (0x0001, 0x7F)] with x := 0x02 })
    ({ base [(0x0200, 0xF6), (0x0201, 0xFF), (0x0001, 0x7F), (0x0001, 0x80)] with x := 0x02, p := 0xA0, pc := 0x0202 }) = true := by decide +kernel

/-- V46, INC $FFFF,X. -/
theorem test_v46_incAbsx : goes
    ({ base [(0x0200, 0xFE), (0x0201, 0xFF), (0x0202, 0xFF), (0x0000, 0x00)] with x := 0x01 })
    ({ base [(0x0200, 0xFE), (0x0201, 0xFF), (0x0202, 0xFF), (0x0000, 0x00), (0x0000, 0x01)] with x := 0x01, pc := 0x0203 }) = true := by decide +kernel

/-- V47, DEC $10 (0x00). -/
theorem test_v47_decZp : goes
    (base [(0x0200, 0xC6), (0x0201, 0x10)])
    ({ base [(0x0200, 0xC6), (0x0201, 0x10), (0x0010, 0xFF)] with p := 0xA0, pc := 0x0202 }) = true := by decide +kernel

/-- V50, DEC $2000,X. -/
theorem test_v50_decAbsx : goes
    ({ base [(0x0200, 0xDE), (0x0201, 0x00), (0x0202, 0x20), (0x2010, 0x80)] with x := 0x10 })
    ({ base [(0x0200, 0xDE), (0x0201, 0x00), (0x0202, 0x20), (0x2010, 0x80), (0x2010, 0x7F)] with x := 0x10, pc := 0x0203 }) = true := by decide +kernel

/-- V54, ADC #$80, A=0x80 (carry, overflow, zero). -/
theorem test_v54_adcImm : goes
    ({ base [(0x0200, 0x69), (0x0201, 0x80)] with a := 0x80 })
    ({ base [(0x0200, 0x69), (0x0201, 0x80)] with a := 0x00, p := 0x63, pc := 0x0202 }) = true := by decide +kernel

/-- V57, ADC #$09, A=0x09, D=1 (binary). -/
theorem test_v57_adcImm : goes
    ({ base [(0x0200, 0x69), (0x0201, 0x09)] with a := 0x09, p := 0x28 })
    ({ base [(0x0200, 0x69), (0x0201, 0x09)] with a := 0x12, p := 0x28, pc := 0x0202 }) = true := by decide +kernel

/-- V60, SBC #$01, A=0x05, C=0 (borrow in). -/
theorem test_v60_sbcImm : goes
    ({ base [(0x0200, 0xE9), (0x0201, 0x01)] with a := 0x05 })
    ({ base [(0x0200, 0xE9), (0x0201, 0x01)] with a := 0x03, p := 0x21, pc := 0x0202 }) = true := by decide +kernel

/-- V62, SBC #$01, A=0x80, C=1 (signed overflow). -/
theorem test_v62_sbcImm : goes
    ({ base [(0x0200, 0xE9), (0x0201, 0x01)] with a := 0x80, p := 0x21 })
    ({ base [(0x0200, 0xE9), (0x0201, 0x01)] with a := 0x7F, p := 0x61, pc := 0x0202 }) = true := by decide +kernel

/-- V66, CMP #$20, A=0x10. -/
theorem test_v66_cmpImm : goes
    ({ base [(0x0200, 0xC9), (0x0201, 0x20)] with a := 0x10 })
    ({ base [(0x0200, 0xC9), (0x0201, 0x20)] with a := 0x10, p := 0xA0, pc := 0x0202 }) = true := by decide +kernel

/-- V67, CMP #$01, A=0x80. -/
theorem test_v67_cmpImm : goes
    ({ base [(0x0200, 0xC9), (0x0201, 0x01)] with a := 0x80 })
    ({ base [(0x0200, 0xC9), (0x0201, 0x01)] with a := 0x80, p := 0x21, pc := 0x0202 }) = true := by decide +kernel

/-- V69, CPX #$FF, X=0xFF. -/
theorem test_v69_cpxImm : goes
    ({ base [(0x0200, 0xE0), (0x0201, 0xFF)] with x := 0xFF })
    ({ base [(0x0200, 0xE0), (0x0201, 0xFF)] with x := 0xFF, p := 0x23, pc := 0x0202 }) = true := by decide +kernel

/-- V71, CPY #$40, Y=0x41. -/
theorem test_v71_cpyImm : goes
    ({ base [(0x0200, 0xC0), (0x0201, 0x40)] with y := 0x41 })
    ({ base [(0x0200, 0xC0), (0x0201, 0x40)] with y := 0x41, p := 0x21, pc := 0x0202 }) = true := by decide +kernel

/-- V73, AND #$0F, A=0xF0. -/
theorem test_v73_andImm : goes
    ({ base [(0x0200, 0x29), (0x0201, 0x0F)] with a := 0xF0 })
    ({ base [(0x0200, 0x29), (0x0201, 0x0F)] with a := 0x00, p := 0x22, pc := 0x0202 }) = true := by decide +kernel

/-- V76, ORA $10, A=0x01. -/
theorem test_v76_oraZp : goes
    ({ base [(0x0200, 0x05), (0x0201, 0x10), (0x0010, 0x80)] with a := 0x01 })
    ({ base [(0x0200, 0x05), (0x0201, 0x10), (0x0010, 0x80)] with a := 0x81, p := 0xA0, pc := 0x0202 }) = true := by decide +kernel

/-- V78, EOR #$FF, A=0x0F. -/
theorem test_v78_eorImm : goes
    ({ base [(0x0200, 0x49), (0x0201, 0xFF)] with a := 0x0F })
    ({ base [(0x0200, 0x49), (0x0201, 0xFF)] with a := 0xF0, p := 0xA0, pc := 0x0202 }) = true := by decide +kernel

/-- V80, BIT $10, A=0x01, M=0xC0. -/
theorem test_v80_bitZp : goes
    ({ base [(0x0200, 0x24), (0x0201, 0x10), (0x0010, 0xC0)] with a := 0x01 })
    ({ base [(0x0200, 0x24), (0x0201, 0x10), (0x0010, 0xC0)] with a := 0x01, p := 0xE2, pc := 0x0202 }) = true := by decide +kernel

/-- V81, BIT $10, A=0xFF, M=0x01, N=V=1. -/
theorem test_v81_bitZp : goes
    ({ base [(0x0200, 0x24), (0x0201, 0x10), (0x0010, 0x01)] with a := 0xFF, p := 0xE0 })
    ({ base [(0x0200, 0x24), (0x0201, 0x10), (0x0010, 0x01)] with a := 0xFF, p := 0x20, pc := 0x0202 }) = true := by decide +kernel

/-- V83, ASL A, A=0x81. -/
theorem test_v83_aslAcc : goes
    ({ base [(0x0200, 0x0A)] with a := 0x81 })
    ({ base [(0x0200, 0x0A)] with a := 0x02, p := 0x21, pc := 0x0201 }) = true := by decide +kernel

/-- V85, ASL $10, M=0x80. -/
theorem test_v85_aslZp : goes
    (base [(0x0200, 0x06), (0x0201, 0x10), (0x0010, 0x80)])
    ({ base [(0x0200, 0x06), (0x0201, 0x10), (0x0010, 0x80), (0x0010, 0x00)] with p := 0x23, pc := 0x0202 }) = true := by decide +kernel

/-- V87, LSR A, A=0xFF, C=1. -/
theorem test_v87_lsrAcc : goes
    ({ base [(0x0200, 0x4A)] with a := 0xFF, p := 0x21 })
    ({ base [(0x0200, 0x4A)] with a := 0x7F, p := 0x21, pc := 0x0201 }) = true := by decide +kernel

/-- V88, LSR $10,X. -/
theorem test_v88_lsrZpx : goes
    ({ base [(0x0200, 0x56), (0x0201, 0x10), (0x0011, 0x02)] with x := 0x01 })
    ({ base [(0x0200, 0x56), (0x0201, 0x10), (0x0011, 0x02), (0x0011, 0x01)] with x := 0x01, pc := 0x0202 }) = true := by decide +kernel

/-- V90, ROL A, A=0x80, C=1. -/
theorem test_v90_rolAcc : goes
    ({ base [(0x0200, 0x2A)] with a := 0x80, p := 0x21 })
    ({ base [(0x0200, 0x2A)] with a := 0x01, p := 0x21, pc := 0x0201 }) = true := by decide +kernel

/-- V91, ROL $1000, M=0x40, C=1. -/
theorem test_v91_rolAbs : goes
    ({ base [(0x0200, 0x2E), (0x0201, 0x00), (0x0202, 0x10), (0x1000, 0x40)] with p := 0x21 })
    ({ base [(0x0200, 0x2E), (0x0201, 0x00), (0x0202, 0x10), (0x1000, 0x40), (0x1000, 0x81)] with p := 0xA0, pc := 0x0203 }) = true := by decide +kernel

/-- V92, ROR A, A=0x01, C=0. -/
theorem test_v92_rorAcc : goes
    ({ base [(0x0200, 0x6A)] with a := 0x01 })
    ({ base [(0x0200, 0x6A)] with a := 0x00, p := 0x23, pc := 0x0201 }) = true := by decide +kernel

/-- V94, ROR $1000,X, M=0x03, C=1. -/
theorem test_v94_rorAbsx : goes
    ({ base [(0x0200, 0x7E), (0x0201, 0x00), (0x0202, 0x10), (0x1001, 0x03)] with x := 0x01, p := 0x21 })
    ({ base [(0x0200, 0x7E), (0x0201, 0x00), (0x0202, 0x10), (0x1001, 0x03), (0x1001, 0x81)] with x := 0x01, p := 0xA1, pc := 0x0203 }) = true := by decide +kernel

/-- V96, PHA, SP=0x00 (wrap). -/
theorem test_v96_pha : goes
    ({ base [(0x0200, 0x48)] with a := 0x5A, sp := 0x00 })
    ({ base [(0x0200, 0x48), (0x0100, 0x5A)] with a := 0x5A, sp := 0xFF, pc := 0x0201 }) = true := by decide +kernel

/-- V98, PHP, P=0xE3. -/
theorem test_v98_php : goes
    ({ base [(0x0200, 0x08)] with p := 0xE3, sp := 0x80 })
    ({ base [(0x0200, 0x08), (0x0180, 0xF3)] with p := 0xE3, sp := 0x7F, pc := 0x0201 }) = true := by decide +kernel

/-- V100, PLA, SP=0xFF (wrap). -/
theorem test_v100_pla : goes
    ({ base [(0x0200, 0x68), (0x0100, 0x80)] with sp := 0xFF, a := 0x00 })
    ({ base [(0x0200, 0x68), (0x0100, 0x80)] with sp := 0x00, a := 0x80, p := 0xA0, pc := 0x0201 }) = true := by decide +kernel

/-- V101, PLP, pulled 0xFF. -/
theorem test_v101_plp : goes
    ({ base [(0x0200, 0x28), (0x01FF, 0xFF)] with sp := 0xFE, p := 0x20 })
    ({ base [(0x0200, 0x28), (0x01FF, 0xFF)] with sp := 0xFF, p := 0xEF, pc := 0x0201 }) = true := by decide +kernel

/-- V103, BCC taken. -/
theorem test_v103_bcc : goes
    ({ base [(0x0200, 0x90), (0x0201, 0x10)] with p := 0x20 })
    ({ base [(0x0200, 0x90), (0x0201, 0x10)] with p := 0x20, pc := 0x0212 }) = true := by decide +kernel

/-- V105, BCS taken backward. -/
theorem test_v105_bcs : goes
    ({ base [(0x0200, 0xB0), (0x0201, 0xFC)] with p := 0x21 })
    ({ base [(0x0200, 0xB0), (0x0201, 0xFC)] with p := 0x21, pc := 0x01FE }) = true := by decide +kernel

/-- V106, BEQ taken, offset 0. -/
theorem test_v106_beq : goes
    ({ base [(0x0200, 0xF0), (0x0201, 0x00)] with p := 0x22 })
    ({ base [(0x0200, 0xF0), (0x0201, 0x00)] with p := 0x22, pc := 0x0202 }) = true := by decide +kernel

/-- V107, BNE not taken. -/
theorem test_v107_bne : goes
    ({ base [(0x0200, 0xD0), (0x0201, 0x80)] with p := 0x22 })
    ({ base [(0x0200, 0xD0), (0x0201, 0x80)] with p := 0x22, pc := 0x0202 }) = true := by decide +kernel

/-- V108, BNE taken, offset 0x80. -/
theorem test_v108_bne : goes
    ({ base [(0x0200, 0xD0), (0x0201, 0x80)] with p := 0x20 })
    ({ base [(0x0200, 0xD0), (0x0201, 0x80)] with p := 0x20, pc := 0x0182 }) = true := by decide +kernel

/-- V109, BMI taken. -/
theorem test_v109_bmi : goes
    ({ base [(0x0200, 0x30), (0x0201, 0x7F)] with p := 0xA0 })
    ({ base [(0x0200, 0x30), (0x0201, 0x7F)] with p := 0xA0, pc := 0x0281 }) = true := by decide +kernel

/-- V110, BPL taken, offset 0xFE (self loop). -/
theorem test_v110_bpl : goes
    ({ base [(0x0200, 0x10), (0x0201, 0xFE)] with p := 0x20 })
    ({ base [(0x0200, 0x10), (0x0201, 0xFE)] with p := 0x20, pc := 0x0200 }) = true := by decide +kernel

/-- V111, BVC taken. -/
theorem test_v111_bvc : goes
    ({ base [(0x0200, 0x50), (0x0201, 0x02)] with p := 0x20 })
    ({ base [(0x0200, 0x50), (0x0201, 0x02)] with p := 0x20, pc := 0x0204 }) = true := by decide +kernel

/-- V112, BVS not taken. -/
theorem test_v112_bvs : goes
    ({ base [(0x0200, 0x70), (0x0201, 0x02)] with p := 0x20 })
    ({ base [(0x0200, 0x70), (0x0201, 0x02)] with p := 0x20, pc := 0x0202 }) = true := by decide +kernel

/-- V113, JMP $1234. -/
theorem test_v113_jmpAbs : goes
    (base [(0x0200, 0x4C), (0x0201, 0x34), (0x0202, 0x12)])
    ({ base [(0x0200, 0x4C), (0x0201, 0x34), (0x0202, 0x12)] with pc := 0x1234 }) = true := by decide +kernel

/-- V114, JMP ($12FF) (no page wrap). -/
theorem test_v114_jmpInd : goes
    (base [(0x0200, 0x6C), (0x0201, 0xFF), (0x0202, 0x12), (0x12FF, 0x00), (0x1300, 0x40), (0x1200, 0x80)])
    ({ base [(0x0200, 0x6C), (0x0201, 0xFF), (0x0202, 0x12), (0x12FF, 0x00), (0x1300, 0x40), (0x1200, 0x80)] with pc := 0x4000 }) = true := by decide +kernel

/-- V116, JSR $0610, SP=0x00. -/
theorem test_v116_jsr : goes
    ({ base [(0x0200, 0x20), (0x0201, 0x10), (0x0202, 0x06)] with sp := 0x00 })
    ({ base [(0x0200, 0x20), (0x0201, 0x10), (0x0202, 0x06), (0x0100, 0x02), (0x01FF, 0x02)] with sp := 0xFE, pc := 0x0610 }) = true := by decide +kernel

/-- V118, RTS, pulled 0xFFFF. -/
theorem test_v118_rts : goes
    ({ base [(0x0200, 0x60), (0x01FE, 0xFF), (0x01FF, 0xFF)] with sp := 0xFD })
    ({ base [(0x0200, 0x60), (0x01FE, 0xFF), (0x01FF, 0xFF)] with sp := 0xFF, pc := 0x0000 }) = true := by decide +kernel

/-- V120, RTI, pulled P=0xDF. -/
theorem test_v120_rti : goes
    ({ base [(0x0200, 0x40), (0x01FD, 0xDF), (0x01FE, 0x34), (0x01FF, 0x12)] with sp := 0xFC, p := 0x20 })
    ({ base [(0x0200, 0x40), (0x01FD, 0xDF), (0x01FE, 0x34), (0x01FF, 0x12)] with sp := 0xFF, p := 0xEF, pc := 0x1234 }) = true := by decide +kernel

/-- V121, BRK. -/
theorem test_v121_brk : goes
    ({ base [(0x0200, 0x00)] with p := 0x28 })
    ({ base [(0x0200, 0x00)] with p := 0x3C, pc := 0x0201, engine := .halted }) = true := by decide +kernel

/-- V123, NOP. -/
theorem test_v123_nop : goes
    (base [(0x0200, 0xEA)])
    ({ base [(0x0200, 0xEA)] with pc := 0x0201 }) = true := by decide +kernel

/-- V124, undefined byte 0x02. -/
theorem test_v124_undefined : goes
    ({ base [(0x0200, 0x02), (0x0201, 0x34), (0x0202, 0x12)] with a := 0x11 })
    ({ base [(0x0200, 0x02), (0x0201, 0x34), (0x0202, 0x12)] with a := 0x11, pc := 0x0201, engine := .faulted .unimplementedOpcode 0x02 0x0200 }) = true := by decide +kernel

/-- V126, LDA abs with only 0x00 and 0xA9 wired in. -/
theorem test_v126_ldaAbs_not_wired : goes
    ({ base [(0x0200, 0xAD), (0x0201, 0x00), (0x0202, 0x10)] with cfg := { layout := .ascending, implemented := [0x00, 0xA9] } })
    ({ base [(0x0200, 0xAD), (0x0201, 0x00), (0x0202, 0x10)] with cfg := { layout := .ascending, implemented := [0x00, 0xA9] }, pc := 0x0201, engine := .faulted .unimplementedOpcode 0xAD 0x0200 }) = true := by decide +kernel

/-! ## Layouts, reset, runs -/

/-- E1 and E15 under `literal`: P is 0x14 after reset. -/
theorem test_e15_reset_literal :
    ({ base [(0xFFFC, 0x34), (0xFFFD, 0x12)] with
        a := 0x55, p := 0xFF, cfg := { layout := .literal, implemented := [0x00, 0xA9] } } : State).hostReset =
      { base [(0xFFFC, 0x34), (0xFFFD, 0x12)] with
        sp := 0x00, p := 0x14, pc := 0x1234, cfg := { layout := .literal, implemented := [0x00, 0xA9] } } := by
  decide +kernel

/-- E15: BRK adds B at bit 3 and I at bit 5 under `literal`. -/
theorem test_e15_brk_literal :
    goes { base [] with p := 0x14, cfg := { layout := .literal, implemented := [0x00, 0xA9] } }
      { base [] with
        p := 0x3C, pc := 0x0201, engine := .halted, cfg := { layout := .literal, implemented := [0x00, 0xA9] } } =
      true := by decide +kernel

/-- E2: the vector points at itself, and 0xFC is no opcode. -/
theorem test_e2_vector_at_itself :
    goes (base [(0xFFFC, 0xFC), (0xFFFD, 0xFF)]).hostReset
      { base [(0xFFFC, 0xFC), (0xFFFD, 0xFF)] with
        sp := 0x00, p := 0x28, pc := 0xFFFD, engine := .faulted .unimplementedOpcode 0xFC 0xFFFC } = true := by
  decide +kernel

/-- E12: the empty image runs one BRK. -/
theorem test_e12_run_empty_image :
    runLoop 1 (base []).hostReset = some { State.reset with pc := 0x0001, p := 0x3C, engine := .halted } := by
  decide +kernel

/-- E14: LDA #$80, BRK. -/
theorem test_e14_run_lda_brk :
    runLoop 2 (base [(0, 0xA9), (1, 0x80)]).hostReset =
      some { State.reset with
        pc := 0x0003, p := 0xBC, a := 0x80, engine := .halted, mem := [(0, 0xA9), (1, 0x80)] } := by
  decide +kernel

/-- E3 to E7: N and Z of five values, from P with both set and with both clear. -/
theorem test_e3_e7_flags :
    ([0x00, 0x7F, 0x80, 0xFF, 0x01].map fun v => ({ base [] with p := 0xA2 } : State).updateNZ v |>.p) =
      [0x22, 0x20, 0xA0, 0xA0, 0x20] := by decide

/-- E8, section 2.1: the overflow truth table. -/
theorem test_e8_overflow_table :
    ([(0x50, 0x10, 0x60), (0x50, 0x50, 0xA0), (0x50, 0x90, 0xE0), (0x50, 0xD0, 0x20), (0xD0, 0x10, 0xE0),
      (0xD0, 0x50, 0x20), (0xD0, 0x90, 0x60), (0xD0, 0xD0, 0xA0), (0x00, 0x00, 0x80), (0x80, 0x00, 0x80)].map
        fun t : Byte × Byte × Byte => overflowBit t.1 t.2.1 t.2.2) =
      [false, true, false, false, false, false, true, false, true, false] := by decide

/-- E9 and E10: zero-page indexing wraps in page 0. -/
theorem test_e9_zero_page_wrap :
    ({ base [] with x := 0x02, y := 0x02 } : State).resolve (.zpx 0xFF) = some 0x0001 ∧
    ({ base [] with x := 0x02, y := 0x02 } : State).resolve (.zpy 0xFF) = some 0x0001 := by decide

/-- The codes the host reads (R120). -/
theorem test_codes :
    (EngineState.running.code, EngineState.halted.code, (EngineState.faulted .addressingError 0 0).code) = (0, 1, 2) ∧
    (FaultCause.unimplementedOpcode.code, FaultCause.addressingError.code) = (1, 2) := by decide

/-- The host's flag byte has U set whatever is stored (R33). -/
theorem test_flagByte : ({ base [] with p := 0x00 } : State).flagByte = 0x20 := by decide

/-! ## Witnesses: the hypotheses of each obligation that has some are met -/

/-- Two states with one vector, one in each layout, and a third that differs elsewhere. -/
theorem witness_ResetValues :
    let s := { base [(0xFFFC, 0x34), (0xFFFD, 0x12)] with a := 0x55 }
    let s' := { base [(0x0000, 0x77), (0xFFFC, 0x34), (0xFFFD, 0x12)] with engine := .halted }
    s.memRead 0xFFFC = 0x34 ∧ s.memRead 0xFFFD = 0x12 ∧ s'.memRead 0xFFFC = s.memRead 0xFFFC ∧
    s'.memRead 0xFFFD = s.memRead 0xFFFD ∧ s'.cfg = s.cfg ∧ s.cfg.layout = .ascending ∧
    ({ s with cfg := { s.cfg with layout := .literal } } : State).memRead 0xFFFC = 0x34 := by decide +kernel

theorem witness_ResetIsHostReset :
    ({ base [] with a := 0x55, p := 0xFF, engine := .halted } : State).mem = [] ∧
    ({ base [] with a := 0x55, p := 0xFF, engine := .halted } : State).cfg = Config.standard := by decide +kernel

/-- The invariant holds in a Running, a Halted and a Faulted state, and each steps. -/
theorem witness_StepKeepsInv :
    (Inv (base [(0x0200, 0xEA)]) ∧ ∃ t, step (base [(0x0200, 0xEA)]) = .next t) ∧
    (Inv { base [] with p := 0x34, engine := .halted } ∧
      ∃ t, step { base [] with p := 0x34, engine := .halted } = .next t) ∧
    (Inv { base [(0x01FF, 0x02)] with engine := .faulted .unimplementedOpcode 0x02 0x01FF } ∧
      ∃ t, step { base [(0x01FF, 0x02)] with engine := .faulted .unimplementedOpcode 0x02 0x01FF } = .next t) := by
  refine ⟨⟨⟨by decide +kernel, by decide +kernel, by decide +kernel, by decide +kernel, nofun, nofun⟩, _, rfl⟩,
    ⟨⟨by decide +kernel, by decide +kernel, by decide +kernel, nofun, by decide +kernel, nofun⟩, _, rfl⟩,
    ⟨⟨by decide +kernel, by decide +kernel, by decide +kernel, nofun, nofun, ?_⟩, _, rfl⟩⟩
  intro cause opc ad h
  cases h
  decide +kernel

theorem witness_BootEstablishesInv :
    (base [(0xFFFC, 0x34)]).mem.wf = true ∧ (base [(0xFFFC, 0x34)]).cfg.wf = true := by decide +kernel

/-- Either side holds, with bytes left over. -/
theorem witness_DecodeEncodeAgree :
    decode [0xAD, 0x34, 0x12, 0x77] = .ok (.ldaAbs 0x1234, [0x77]) ∧
    [0xAD, 0x34, 0x12, 0x77] = encode (.ldaAbs 0x1234) ++ [0x77] := by decide +kernel

/-- A byte that is no opcode, the first and the last of the list, and an opcode outside IMPLEMENTED. -/
theorem witness_UndefinedOpcodes :
    ((base [(0x0200, 0x02)]).engine = .running ∧ (base [(0x0200, 0x02)]).memRead 0x0200 ∈ undefinedOpcodes) ∧
    (base [(0x0200, 0xFF)]).memRead 0x0200 ∈ undefinedOpcodes ∧
    (base [(0x0200, 0xAD)]).memRead 0x0200 ∉ [0x00#8, 0xA9] := by decide +kernel

/-- One instruction of each length, the longest across the end of the address space. -/
theorem witness_StepRunsDecoded :
    let s := { base [(0xFFFF, 0xAD), (0x0000, 0x34), (0x0001, 0x12)] with pc := 0xFFFF }
    s.engine = .running ∧ decode s.bytesAtPC = .ok (.ldaAbs 0x1234, []) ∧
    (Instr.ldaAbs 0x1234).wellFormed s.cfg = true ∧
    decode (base [(0x0200, 0xA9)]).bytesAtPC = .ok (.ldaImm 0x00, [0x00]) ∧
    decode (base []).bytesAtPC = .ok (.brk, [0x00, 0x00]) := by decide +kernel

theorem witness_UnwiredOpcodeFaults :
    (base [(0x0200, 0x02)]).engine = .running ∧
    isWired (base [(0x0200, 0x02)]).cfg ((base [(0x0200, 0x02)]).memRead 0x0200) = false ∧
    isWired { layout := .ascending, implemented := [0x00, 0xA9] } 0xAD = false := by decide +kernel

theorem witness_StoppedEngineIsInert :
    Final { base [] with engine := .halted } ∧
    Final { base [] with engine := .faulted .addressingError 0x0A 0x0200 } := ⟨nofun, nofun⟩

/-- A Running state at a wired-in byte and one at another. -/
theorem witness_StepFaultsExactly :
    (base [(0x0200, 0xEA)]).engine = .running ∧ isWired (base []).cfg 0xEA = true ∧
    isWired (base []).cfg 0x02 = false := by decide +kernel

/-- BRK halts, NOP does not. -/
theorem witness_OnlyBrkHalts :
    (∃ t, (base []).engine = .running ∧ step (base []) = .next t ∧ t.engine = .halted) ∧
    ∃ t, (base [(0x0200, 0xEA)]).engine = .running ∧ step (base [(0x0200, 0xEA)]) = .next t ∧ t.engine = .running :=
  ⟨⟨_, rfl, rfl, rfl⟩, ⟨_, rfl, rfl, rfl⟩⟩

/-- One instruction of each length, BRK among them, and one at the top of the address space. -/
theorem witness_PcAfterStep :
    let ms : List Mnemonic := [.bcc, .bcs, .beq, .bmi, .bne, .bpl, .bvc, .bvs, .jmp, .jsr, .rts, .rti]
    (base []).engine = .running ∧ decode (base []).bytesAtPC = .ok (.brk, [0, 0]) ∧
    Instr.brk.wellFormed (base []).cfg = true ∧ Instr.brk.mnemonic ∉ ms ∧
    decode (base [(0x0200, 0xA9)]).bytesAtPC = .ok (.ldaImm 0, [0]) ∧ (Instr.ldaImm 0).mnemonic ∉ ms ∧
    decode ({ base [(0xFFFF, 0x8D)] with pc := 0xFFFF } : State).bytesAtPC = .ok (.staAbs 0, []) ∧
    (Instr.staAbs 0).mnemonic ∉ ms := by decide +kernel

/-- The first and the last place, in both layouts. -/
theorem witness_FlagPlaces :
    [Flag.c, .z, .i, .d, .b, .u, .v, .n][0]? = some .c ∧ [Flag.c, .z, .i, .d, .b, .u, .v, .n][7]? = some .n ∧
    (base []).cfg.layout = .ascending ∧
    ({ base [] with cfg := { layout := .literal, implemented := [0x00, 0xA9] } } : State).cfg.layout = .literal := by
  decide +kernel

/-- Two instructions of one mnemonic and mode. -/
theorem witness_ModesOfMnemonics :
    (Instr.ldaImm 1).mnemonic = (Instr.ldaImm 2).mnemonic ∧ (Instr.ldaImm 1).mode = (Instr.ldaImm 2).mode := by decide

/-- A form that is not immediate and has no address, and one at the end of page 0. -/
theorem witness_EffectiveAddresses :
    Operand.imp.mode ≠ .imm ∧ (Operand.zpx 0xFF).mode ≠ .imm := by decide

/-- Each mode that each of the three combinators stops at, and an instruction that completes in a state
already Faulted so. -/
theorem witness_AddressingErrorEntry :
    (Operand.imp.mode ∈ [Mode.imp, .acc] ∧ Operand.imp.mode ∈ [Mode.imp, .acc, .imm] ∧ Operand.imp.mode ∈ [Mode.imp, .imm] ∧
      (base []).pc = 0x01FF + BitVec.ofNat 16 (1 + Operand.imp.mode.operandBytes)) ∧
    (Operand.acc.mode ∈ [Mode.imp, .acc] ∧ Operand.acc.mode ∈ [Mode.imp, .acc, .imm] ∧
      (base []).pc = 0x01FF + BitVec.ofNat 16 (1 + Operand.acc.mode.operandBytes)) ∧
    ((Operand.imm 0x10).mode ∈ [Mode.imp, .acc, .imm] ∧ (Operand.imm 0x10).mode ∈ [Mode.imp, .imm] ∧
      (base []).pc = 0x01FE + BitVec.ofNat 16 (1 + (Operand.imm 0x10).mode.operandBytes)) ∧
    ∃ t, exec .nop { base [] with engine := .faulted .addressingError 0x0A 0x0200 } = .next t ∧
      t.engine = .faulted .addressingError 0x0A 0x0200 :=
  ⟨by decide, by decide, by decide, _, rfl, rfl⟩

theorem witness_MemoryPort : (base [(0x0000, 0x01), (0xFFFF, 0x02)]).mem.wf = true := by decide +kernel

theorem witness_MemoryCanonical :
    Memory.wf [(0, 1), (65535, 2)] = true ∧ Memory.wf (Memory.write [(65535, 2)] 0 1) = true ∧
    ∀ ad : Word, Memory.read [(0, 1), (65535, 2)] ad.toNat = (Memory.write [(65535, 2)] 0 1).read ad.toNat :=
  ⟨by decide, by decide, fun _ => rfl⟩

theorem witness_PushPull : ({ base [(0x0100, 0x5A)] with sp := 0x00 } : State).mem.wf = true := by decide +kernel

/-- The first, one in the middle and the last of the seven. -/
theorem witness_FlagInstructions :
    ∀ w ∈ [(Instr.clc, Flag.c, false), (.sei, .i, true), (.clv, .v, false)],
      w ∈ [(Instr.clc, Flag.c, false), (.sec, .c, true), (.cli, .i, false), (.sei, .i, true),
        (.cld, .d, false), (.sed, .d, true), (.clv, .v, false)] := by decide

theorem witness_LoadA : (Instr.ldaImm 0x80).mnemonic = .lda ∧ (Instr.ldaIndy 0xFF).mnemonic = .lda := by decide

theorem witness_LoadX : (Instr.ldxImm 0x80).mnemonic = .ldx ∧ (Instr.ldxZpy 0xFF).mnemonic = .ldx := by decide

theorem witness_LoadY : (Instr.ldyImm 0x80).mnemonic = .ldy ∧ (Instr.ldyAbsx 0xFFFF).mnemonic = .ldy := by decide

/-- Each of the three stores, in canonical memory. -/
theorem witness_Stores :
    let s := { base [(0x0010, 0x77)] with a := 1, x := 2, y := 3 }
    ((Instr.staZp 0x10).mnemonic = .sta ∧ (1 : Byte) = s.a) ∧ ((Instr.stxZpy 0x10).mnemonic = .stx ∧ (2 : Byte) = s.x) ∧
    ((Instr.styAbs 0xFFFF).mnemonic = .sty ∧ (3 : Byte) = s.y) ∧ s.mem.wf = true := by decide +kernel

theorem witness_IncDecMemory :
    (Instr.incAbsx 0xFFFF).mnemonic = .inc ∧ (Instr.decZp 0xFF).mnemonic = .dec ∧
    (base [(0xFFFF, 0xFF)]).mem.wf = true := by decide +kernel

theorem witness_AdcResult : (Instr.adcImm 0xFF).mnemonic = .adc ∧ (Instr.adcIndy 0xFF).mnemonic = .adc := by decide

theorem witness_SbcResult : (Instr.sbcImm 0xFF).mnemonic = .sbc ∧ (Instr.sbcIndx 0xFF).mnemonic = .sbc := by decide

/-- ADC and SBC, each once with and once without overflow. -/
theorem witness_SignedOverflow :
    let s := { base [] with a := 0x7F, p := 0x21 }
    (s.readOperand (Instr.adcImm 0x00).operand = some 0x00 ∧
      ends (exec (.adcImm 0x00) s) (fun t => t.flag .v) = true) ∧
    ends (exec (.adcImm 0xFF) s) (fun t => !t.flag .v) = true ∧
    (s.readOperand (Instr.sbcImm 0xFF).operand = some 0xFF ∧
      ends (exec (.sbcImm 0xFF) s) (fun t => t.flag .v) = true) ∧
    ends (exec (.sbcImm 0x00) s) (fun t => !t.flag .v) = true := by decide +kernel

theorem witness_Compares :
    let s := { base [] with a := 1, x := 2, y := 3 }
    ((Instr.cmpImm 0x01).mnemonic = .cmp ∧ (1 : Byte) = s.a) ∧ ((Instr.cpxZp 0x10).mnemonic = .cpx ∧ (2 : Byte) = s.x) ∧
    ((Instr.cpyAbs 0x1000).mnemonic = .cpy ∧ (3 : Byte) = s.y) := by decide

theorem witness_Logicals :
    (Instr.andImm 0x0F).mnemonic = .and ∧ (Instr.oraIndy 0x10).mnemonic = .ora ∧
    (Instr.eorAbsx 0xFFFF).mnemonic = .eor := by decide

theorem witness_BitTest : (Instr.bitZp 0x10).mnemonic = .bit ∧ (Instr.bitAbs 0xFFFF).mnemonic = .bit := by decide

/-- Each of the four, in A and in memory. -/
theorem witness_Shifts :
    ∀ i ∈ [Instr.aslAcc, .lsrZp 0x10, .rolAbs 0xFFFF, .rorAbsx 0xFFFF, .rorAcc],
      i.mnemonic ∈ [Mnemonic.asl, .lsr, .rol, .ror] := by decide

theorem witness_PushInstructions : (base [(0x01FF, 0x01)]).mem.wf = true := by decide +kernel

/-- At the top of the stack page, where SP wraps. -/
theorem witness_PullInstructions :
    let s := { base [(0x0100, 0x80)] with sp := 0xFF }
    (0x80 : Byte) = s.memRead (stackAddr (s.sp + 1)) := by decide +kernel

/-- Each of the eight, with the flag at the value tested in one state and at the other in another. -/
theorem witness_Branches :
    ∀ w ∈ [(Instr.bcc 0x80, 0x90#8, Flag.c, false), (.bcs 0x80, 0xB0, .c, true), (.beq 0x80, 0xF0, .z, true),
        (.bmi 0x80, 0x30, .n, true), (.bne 0x80, 0xD0, .z, false), (.bpl 0x80, 0x10, .n, false),
        (.bvc 0x80, 0x50, .v, false), (.bvs 0x80, 0x70, .v, true)],
      (base []).flag w.2.2.1 = false ∧ ({ base [] with p := 0xFF } : State).flag w.2.2.1 = true := by decide +kernel

theorem witness_Jumps : (0x12FF : Word) = (0x12 : Byte) ++ (0xFF : Byte) ∧
    (0xFFFF : Word) = (0xFF : Byte) ++ (0xFF : Byte) := by decide

/-- SP at the bottom of the page, so that it wraps between the two pushes. -/
theorem witness_JsrResult :
    (0x0610 : Word) = (0x06 : Byte) ++ (0x10 : Byte) ∧ ({ base [] with sp := 0x00 } : State).mem.wf = true := by
  decide +kernel

/-- SP at the top of the page, where it wraps. -/
theorem witness_RtsResult :
    let s := { base [(0x0100, 0x02), (0x0101, 0x06)] with sp := 0xFF }
    (0x02 : Byte) = s.memRead (stackAddr (s.sp + 1)) ∧ (0x06 : Byte) = s.memRead (stackAddr (s.sp + 2)) := by
  decide +kernel

theorem witness_RtiResult :
    let s := { base [(0x0100, 0x02), (0x0101, 0x06), (0x0102, 0x07)] with sp := 0xFF }
    (0x02 : Byte) = s.memRead (stackAddr (s.sp + 1)) ∧ (0x06 : Byte) = s.memRead (stackAddr (s.sp + 2)) ∧
    (0x07 : Byte) = s.memRead (stackAddr (s.sp + 3)) := by decide +kernel

/-- The state right after the JSR, SP wrapping between its two pushes. -/
theorem witness_CallReturn :
    ∃ s t u : State, s.sp = 0x00 ∧ s.mem.wf = true ∧ exec (.jsr 0x0610) s = .next t ∧ u.sp = t.sp ∧
      u.memRead (stackAddr s.sp) = t.memRead (stackAddr s.sp) ∧
      u.memRead (stackAddr (s.sp - 1)) = t.memRead (stackAddr (s.sp - 1)) ∧ u.a ≠ t.a :=
  ⟨{ base [] with sp := 0x00 }, _,
    { base [(0x0100, 0x01), (0x01FF, 0xFF)] with sp := 0xFE, a := 0x77 }, by decide +kernel, by decide +kernel, rfl,
    by decide +kernel, by decide +kernel, by decide +kernel, by decide +kernel⟩

/-- The state right after PHA and after PHP, with another A and P. -/
theorem witness_PushThenPull :
    (∃ s t u : State, s.mem.wf = true ∧ u.cfg = s.cfg ∧ u.sp = t.sp ∧
      u.memRead (stackAddr s.sp) = t.memRead (stackAddr s.sp) ∧ exec .pha s = .next t ∧ u.a ≠ s.a) ∧
    ∃ s t u : State, s.mem.wf = true ∧ u.cfg = s.cfg ∧ u.sp = t.sp ∧
      u.memRead (stackAddr s.sp) = t.memRead (stackAddr s.sp) ∧ exec .php s = .next t ∧ u.p ≠ s.p :=
  ⟨⟨{ base [] with sp := 0x00, a := 0x5A }, _, { base [(0x0100, 0x5A)] with sp := 0xFF }, by decide +kernel,
    rfl, by decide +kernel, by decide +kernel, rfl, by decide +kernel⟩,
   ⟨{ base [] with sp := 0x00, p := 0xA9 }, _, { base [(0x0100, 0xB9)] with sp := 0xFF }, by decide +kernel,
    rfl, by decide +kernel, by decide +kernel, rfl, by decide +kernel⟩⟩

theorem witness_DecimalIgnored :
    (∃ t, (Instr.adcImm 0x09).mnemonic ∈ [Mnemonic.adc, .sbc, .cmp, .cpx, .cpy] ∧
      exec (.adcImm 0x09) { base [] with p := 0x28, a := 0x09 } = .next t) ∧
    ∃ t, (Instr.cpyImm 0x09).mnemonic ∈ [Mnemonic.adc, .sbc, .cmp, .cpx, .cpy] ∧
      exec (.cpyImm 0x09) (base []) = .next t :=
  ⟨⟨_, by decide, rfl⟩, ⟨_, by decide, rfl⟩⟩

/-- One instruction that changes each flag but U. -/
theorem witness_FlagWriters :
    ∀ w ∈ [(Instr.sec, Flag.c), (.ldaImm 0x00, .z), (.sei, .i), (.sed, .d), (.brk, .b), (.bitZp 0x10, .v),
        (.ldaImm 0x80, .n)],
      w.2 ≠ .u ∧ ends (exec w.1 (base [(0x0010, 0x40)])) (fun t => t.flag w.2 != (base []).flag w.2) = true := by
  decide +kernel

/-- P changes, from a state where U is 0. -/
theorem witness_UnusedAfterFlagWrite :
    ends (exec .sec { base [] with p := 0x00 }) (fun t => decide (t.p ≠ 0x00)) = true := by decide +kernel

/-- One instruction that changes each register, and a shift that changes A. -/
theorem witness_RegisterWriters :
    ends (exec (.ldaImm 0x01) (base [])) (fun t => decide (t.a ≠ (base []).a)) = true ∧
    ends (exec .rolAcc { base [] with a := 0x01 }) (fun t => decide (t.a ≠ 0x01)) = true ∧
    ends (exec .inx (base [])) (fun t => decide (t.x ≠ (base []).x)) = true ∧
    ends (exec .tay { base [] with a := 0x01 }) (fun t => decide (t.y ≠ 0x00)) = true ∧
    ends (exec .pha (base [])) (fun t => decide (t.sp ≠ (base []).sp)) = true ∧
    ends (exec (.bcc 0x10) (base [])) (fun t => decide (t.pc ≠ (base []).pc)) = true := by decide +kernel

/-- A store, and the two bytes of a JSR. -/
theorem witness_MemoryWriters :
    ends (exec (.incAbs 0xFFFF) (base [])) (fun t => decide (t.memRead 0xFFFF ≠ (base []).memRead 0xFFFF)) = true ∧
    ends (exec (.jsr 0x0610) { base [] with sp := 0x00 }) (fun t => decide (t.memRead 0x0100 ≠ 0x00) &&
      decide (t.memRead 0x01FF ≠ 0x00)) = true := by decide +kernel

/-- A run that ends Halted and one that ends Faulted. -/
theorem witness_RunEndsFinally :
    (∃ t, runLoop 1 (base []) = some t ∧ t.engine = .halted) ∧
    ∃ t, runLoop 1 (base [(0x0200, 0x02)]) = some t ∧ t.engine = .faulted .unimplementedOpcode 0x02 0x0200 :=
  ⟨⟨_, rfl, rfl⟩, ⟨_, rfl, rfl⟩⟩

/-- A word placed over others at the top of the address space, in a stopped engine. -/
theorem witness_PlacedWordRuns :
    let s := { base [(0x0000, 0x77), (0xFFFF, 0xEA)] with pc := 0xFFFF, engine := .halted }
    s.mem.wf = true ∧ decodeTableWord 24 0x12348D = some (.staAbs 0x1234) ∧
    (Instr.staAbs 0x1234).wellFormed s.cfg = true := by decide +kernel

end Sys2Proof.Tests
end

section
/-! Proofs of the family 10_state.md: what reset leaves (R34, R440, R441), and that no rule writes P
without setting U (R29). -/

namespace Sys2Proof.Machine

/-! ## Reset -/

/-- Exactly U and D are set after reset (R34). -/
theorem flag_hostReset (s : State) (f : Flag) : s.hostReset.flag f = decide (f = .u ∨ f = .d) := by
  have flagWrites : s.hostReset.flag f =
      (((((((((s.clearFlag .c).clearFlag .z).clearFlag .i).clearFlag .d).clearFlag .b).clearFlag .v).clearFlag
        .n).setFlag .u).setFlag .d).flag f := rfl
  rw [flagWrites]
  cases f <;> simp

/-- P after reset is the masks of U and D alone, in either layout (R28, R34). -/
theorem hostReset_p (s : State) : s.hostReset.p = flagMask s.cfg.layout .u ||| flagMask s.cfg.layout .d := by
  apply eq_of_flagOf (l := s.cfg.layout)
  intro f
  calc flagOf s.cfg.layout f s.hostReset.p
      = decide (f = .u ∨ f = .d) := flag_hostReset s f
    _ = flagOf s.cfg.layout f (flagMask s.cfg.layout .u ||| flagMask s.cfg.layout .d) := by simp

/-- Every field after reset, from the vector bytes and the parameters (R34, R440). -/
theorem hostReset_eq (s : State) : s.hostReset = { s with
    a := 0x00, x := 0x00, y := 0x00, sp := 0x00, pc := wordOf (s.memRead 0xFFFD) (s.memRead 0xFFFC)
    p := flagMask s.cfg.layout .u ||| flagMask s.cfg.layout .d, engine := .running } := by
  rw [← hostReset_p]
  rfl

/-- Settles O1: P is the masks of U and D, and every other field is read off the sequence of R440. -/
theorem resetValues : Obligations.ResetValues := by
  unfold Obligations.ResetValues
  refine ⟨fun s lo hi hlo hhi => ⟨?_, flag_hostReset s⟩, fun s s' hlo hhi hcfg => ?_⟩
  · rw [hostReset_eq, hlo, hhi]
    cases s.cfg.layout <;> rfl
  · rw [hostReset_eq, hostReset_eq, hlo, hhi, hcfg]

/-! ## U after a change to P -/

@[simp] theorem flag_u_loadStatus (s : State) (v : Byte) : (s.loadStatus v).flag .u = true := by
  simp [flag_loadStatus]

/-- Every instruction leaves P as it was or sets U (R29): its last write to P is one of the Flag Unit's. -/
theorem Effect.p_eq_or_flag_u {mn : Mnemonic} {o : Operand} {s t : State} (h : Effect mn o s t) :
    t.p = s.p ∨ t.flag .u = true := by
  cases mn with
  | sta | stx | sty | jmp =>
    obtain ⟨ea, -, rfl⟩ := h
    exact .inl rfl
  | txs | pha | php | bcc | bcs | beq | bmi | bne | bpl | bvc | bvs | jsr | rts | nop =>
    subst h
    exact .inl rfl
  | lda | ldx | ldy | and | ora | eor | inc | dec | pla =>
    obtain ⟨m, -, rfl⟩ := h
    exact .inr (flag_u_updateNZ ..)
  | adc | sbc =>
    obtain ⟨m, -, rfl⟩ := h
    exact .inr (flag_addWithCarry ..)
  | cmp | cpx | cpy =>
    obtain ⟨m, -, rfl⟩ := h
    exact .inr (flag_compare ..)
  | bit =>
    obtain ⟨m, -, rfl⟩ := h
    exact .inr (flag_u_writeFlag ..)
  | asl | lsr | rol | ror =>
    obtain ⟨g, new, -, -, rfl⟩ := h
    exact .inr (flag_u_updateNZ ..)
  | tax | tay | txa | tya | tsx | inx | iny | dex | dey =>
    subst h
    exact .inr (flag_u_updateNZ ..)
  | clc | sec | cli | sei | cld | sed | clv | brk =>
    subst h
    exact .inr (by simp)
  | plp =>
    subst h
    exact .inr (flag_u_loadStatus ..)
  | rti =>
    obtain ⟨u, hu, rfl⟩ := h
    have hcfg : s.cfg = u.cfg := by rw [hu, State.loadStatus_cfg]
    have hset : u.flag .u = true := by rw [hu, flag_u_loadStatus]
    right
    simpa only [State.flag, hcfg] using hset

/-- Settles O54, by the effect of each mnemonic. -/
theorem unusedAfterFlagWrite : Obligations.UnusedAfterFlagWrite := by
  unfold Obligations.UnusedAfterFlagWrite
  refine fun s => ⟨by simp [flag_hostReset], fun i => ?_⟩
  obtain ⟨t, ht, hE⟩ := exec_effect i s
  exact ⟨t, ht, hE.p_eq_or_flag_u.resolve_left⟩

end Sys2Proof.Machine
end

section
/-! Proofs of the family 30_encoding.md: the 105 bytes without an instruction (R85). -/

namespace Sys2Proof

/-- R85's list is the complement of the opcode map: a check of the 256 bytes. -/
theorem mem_undefinedOpcodes_iff (opc : Byte) : opc ∈ undefinedOpcodes ↔ opcodeEntry opc = .noInstr := by
  have checked : ∀ b : Byte, b ∈ undefinedOpcodes ↔ isDocumented b = false := by decide +kernel
  rw [checked, ← Bool.not_eq_true, isDocumented_iff, not_not]

/-- The decoder refuses a byte whatever follows it exactly when the map has no instruction for it (R86). An
opcode that takes an operand is told apart by the empty rest, where its bytes are truncated. -/
theorem decode_unimplemented_iff (opc : Byte) :
    (∀ rest, decode (opc :: rest) = .error (.unimplemented opc)) ↔ opcodeEntry opc = .noInstr := by
  constructor
  · intro h
    have hnil := h []
    cases he : opcodeEntry opc with
    | noInstr => rfl
    | f0 i | f1 make | f2 make => simp [decode, he] at hnil
  · intro he rest
    simp [decode, he]

/-- Neither a byte of R85's list nor a byte outside IMPLEMENTED is wired in (R115). -/
theorem not_isWired_of_undefined_or_unimplemented {c : Config} {opc : Byte}
    (h : opc ∈ undefinedOpcodes ∨ opc ∉ c.implemented) : isWired c opc = false := by
  rw [← Bool.not_eq_true, isWired_iff, not_not, wiredEntry]
  rcases h with hundef | hout
  · rw [(mem_undefinedOpcodes_iff opc).mp hundef, ite_self]
  · exact if_neg hout

namespace Machine

/-- What a step of a Running engine leaves at an opcode that is not wired in (R115). -/
theorem step_unwired {s : State} (hr : s.engine = .running) (hw : isWired s.cfg (s.memRead s.pc) = false) :
    step s = .next { s with
      pc := s.pc + 1, engine := .faulted .unimplementedOpcode (s.memRead s.pc) s.pc } := by
  rcases step_running hr with ⟨-, hstep⟩ | ⟨hwired, -⟩
  · exact hstep
  · exact absurd (hw.symm.trans hwired) Bool.false_ne_true

/-! The theorem has a namespace of its own: in `Machine` its name would hide the model's list. -/

namespace UndefinedBytes

/-- Settles O8: both the list and the decoder agree with the opcode map, and neither kind of byte is wired
in. -/
theorem undefinedOpcodes : Obligations.UndefinedOpcodes := by
  unfold Obligations.UndefinedOpcodes
  refine ⟨fun b => ?_, rfl, fun s hr h => ?_⟩
  · exact (mem_undefinedOpcodes_iff b).trans (decode_unimplemented_iff b).symm
  · exact step_unwired hr (not_isWired_of_undefined_or_unimplemented h)

end UndefinedBytes

end Machine

end Sys2Proof
end

section
/-! Proofs of the family 40_engine.md: the fault of an opcode that is not wired in (R115). -/

namespace Sys2Proof.Machine

/-- Settles O10: the step is `step_unwired`'s, and the state it leaves has the memory it began with. -/
theorem unwiredOpcodeFaults : Obligations.UnwiredOpcodeFaults := by
  unfold Obligations.UnwiredOpcodeFaults
  intro s hr hw
  have memoryKept : MemoryKept s { s with
      pc := s.pc + 1, engine := .faulted .unimplementedOpcode (s.memRead s.pc) s.pc } := fun _ => rfl
  exact ⟨_, step_unwired hr hw, memoryKept, rfl⟩

end Sys2Proof.Machine
end

section
/-! Proofs of the family 41_flag_unit.md: the flag instructions (R146 to R152), each one `writeFlag`. -/

namespace Sys2Proof.Machine

/-- A flag write sets U and keeps every flag but the one written (R140, R145). -/
theorem flagsKeptBut_writeFlag (s : State) (f : Flag) (c : Bool) : FlagsKeptBut [f] s (s.writeFlag f c) := by
  refine ⟨flag_u_writeFlag s f c, fun g hu hg => ?_⟩
  rw [flag_writeFlag, if_neg hu, if_neg (List.mem_singleton.not.mp hg)]

/-- A flag other than U reads as it was written (R140). -/
theorem flag_writeFlag_same (s : State) {f : Flag} (c : Bool) (h : f ≠ .u) : (s.writeFlag f c).flag f = c := by
  rw [flag_writeFlag, if_neg h, if_pos rfl]

/-- The flag instructions, each with the flag it writes and the value it gives it (R146 to R152). -/
def flagInstrRows : List (Instr × Flag × Bool) :=
  [(.clc, .c, false), (.sec, .c, true), (.cli, .i, false), (.sei, .i, true), (.cld, .d, false), (.sed, .d, true),
    (.clv, .v, false)]

/-- Each flag instruction is the one `writeFlag` of its row. -/
theorem exec_of_mem_flagInstrRows {i : Instr} {f : Flag} {c : Bool} (h : (i, f, c) ∈ flagInstrRows)
    (s : State) : exec i s = .next (s.writeFlag f c) := by
  simp only [flagInstrRows, List.mem_cons, List.not_mem_nil, or_false, Prod.mk.injEq] at h
  rcases h with ⟨rfl, rfl, rfl⟩ | ⟨rfl, rfl, rfl⟩ | ⟨rfl, rfl, rfl⟩ | ⟨rfl, rfl, rfl⟩ | ⟨rfl, rfl, rfl⟩ |
    ⟨rfl, rfl, rfl⟩ | ⟨rfl, rfl, rfl⟩ <;> rfl

/-- No instruction writes U for its own sake: U has no row. -/
theorem ne_u_of_mem_flagInstrRows {i : Instr} {f : Flag} {c : Bool} (h : (i, f, c) ∈ flagInstrRows) :
    f ≠ .u := by
  have noRow : ∀ row ∈ flagInstrRows, row.2.1 ≠ .u := by decide
  exact noRow _ h

/-- Settles O26: the encodings are by evaluation, and the rest says what one `writeFlag` changes and keeps. -/
theorem flagInstructions : Obligations.FlagInstructions := by
  unfold Obligations.FlagInstructions
  refine ⟨rfl, rfl, rfl, rfl, rfl, rfl, rfl, fun s i f c h => ?_⟩
  exact ⟨s.writeFlag f c, exec_of_mem_flagInstrRows h s, State.writeFlag_eq s f c,
    flag_writeFlag_same s c (ne_u_of_mem_flagInstrRows h), flagsKeptBut_writeFlag s f c,
    State.memRead_writeFlag s f c⟩

end Sys2Proof.Machine
end

section
/-! Proofs of the family 42_addressing.md: the modes of each mnemonic in the opcode map (R84, R187), and the
effective addresses as numbers (R174 to R183). -/

namespace Sys2Proof

/-! ## Mnemonic and mode of an opcode -/

/-- The instruction the map's entry at an opcode byte makes from a zero operand (R84). -/
def exemplar (opc : Byte) : Option Instr :=
  match opcodeEntry opc with
  | .noInstr => none
  | .f0 i => some i
  | .f1 make => some (make 0)
  | .f2 make => some (make 0)

/-- The opcode byte decides mnemonic and mode, whatever the operand. -/
theorem exists_exemplar (i : Instr) :
    ∃ e, exemplar i.opcode = some e ∧ e.mnemonic = i.mnemonic ∧ e.mode = i.mode := by
  cases i <;> simp only [Instr.opcode, Instr.encoding] <;> exact ⟨_, rfl, rfl, rfl⟩

/-- The mnemonic of an opcode byte, if it is one of the table's. -/
def mnemonicAt (opc : Byte) : Option Mnemonic := (exemplar opc).map Instr.mnemonic

/-- The mode of an opcode byte, if it is one of the table's. -/
def modeAt (opc : Byte) : Option Mode := (exemplar opc).map Instr.mode

@[simp] theorem mnemonicAt_opcode (i : Instr) : mnemonicAt i.opcode = some i.mnemonic := by
  obtain ⟨e, he, hmn, -⟩ := exists_exemplar i
  rw [mnemonicAt, he, Option.map_some, hmn]

@[simp] theorem modeAt_opcode (i : Instr) : modeAt i.opcode = some i.mode := by
  obtain ⟨e, he, -, hmd⟩ := exists_exemplar i
  rw [modeAt, he, Option.map_some, hmd]

/-- An opcode byte has a mnemonic and a mode only through an instruction that has both. -/
theorem exists_instr_of_mnemonicAt_modeAt {opc : Byte} {mn : Mnemonic} {md : Mode}
    (hmn : mnemonicAt opc = some mn) (hmd : modeAt opc = some md) :
    ∃ i : Instr, i.mnemonic = mn ∧ i.mode = md := by
  obtain ⟨e, he, hmode⟩ := Option.map_eq_some_iff.mp hmd
  rw [mnemonicAt, he] at hmn
  exact ⟨e, Option.some.inj hmn, hmode⟩

/-! ## The opcodes and modes of a mnemonic -/

/-- The 256 opcode bytes. -/
def allBytes : List Byte := (List.range 256).map (BitVec.ofNat 8)

theorem mem_allBytes (b : Byte) : b ∈ allBytes :=
  List.mem_map.mpr ⟨b.toNat, List.mem_range.mpr b.isLt, by simp⟩

/-- The opcodes the map has for a mnemonic, rising. -/
def opcodesOf (mn : Mnemonic) : List Byte := allBytes.filter (mnemonicAt · = some mn)

theorem opcode_mem_opcodesOf (i : Instr) : i.opcode ∈ opcodesOf i.mnemonic :=
  List.mem_filter.mpr ⟨mem_allBytes i.opcode, by simp⟩

/-- The mode of each opcode of a mnemonic. -/
def modesInMap (mn : Mnemonic) : List (Option Mode) := (opcodesOf mn).map modeAt

/-- A mnemonic has a mode in the map exactly when some instruction has both. -/
theorem mem_modesInMap_iff (mn : Mnemonic) (md : Mode) :
    some md ∈ modesInMap mn ↔ ∃ i : Instr, i.mnemonic = mn ∧ i.mode = md := by
  constructor
  · intro h
    obtain ⟨opc, hmem, hmode⟩ := List.mem_map.mp h
    exact exists_instr_of_mnemonicAt_modeAt (of_decide_eq_true (List.mem_filter.mp hmem).2) hmode
  · rintro ⟨i, rfl, rfl⟩
    exact List.mem_map.mpr ⟨i.opcode, opcode_mem_opcodesOf i, modeAt_opcode i⟩

/-- The 56 mnemonics in a list, so that a check of each is one evaluation. -/
def mnemonics : List Mnemonic :=
  [.adc, .and, .asl, .bcc, .bcs, .beq, .bit, .bmi, .bne, .bpl, .brk, .bvc, .bvs, .clc,
    .cld, .cli, .clv, .cmp, .cpx, .cpy, .dec, .dex, .dey, .eor, .inc, .inx, .iny, .jmp,
    .jsr, .lda, .ldx, .ldy, .lsr, .nop, .ora, .pha, .php, .pla, .plp, .rol, .ror, .rti,
    .rts, .sbc, .sec, .sed, .sei, .sta, .stx, .sty, .tax, .tay, .tsx, .txa, .txs, .tya]

theorem mem_mnemonics (mn : Mnemonic) : mn ∈ mnemonics := by
  cases mn <;> decide

theorem forall_mnemonic {P : Mnemonic → Prop} (h : ∀ mn ∈ mnemonics, P mn) (mn : Mnemonic) : P mn :=
  h mn (mem_mnemonics mn)

/-- No mnemonic has two opcodes of one mode (R84): a check of the 56. -/
theorem nodup_modesInMap : ∀ mn, (modesInMap mn).Nodup :=
  forall_mnemonic (by decide +kernel)

/-- Mnemonic and mode decide the opcode byte. -/
theorem opcode_eq_of_mnemonic_mode {i j : Instr} (hmn : i.mnemonic = j.mnemonic) (hmd : i.mode = j.mode) :
    i.opcode = j.opcode := by
  have hj : j.opcode ∈ opcodesOf i.mnemonic := hmn ▸ opcode_mem_opcodesOf j
  have sameMode : modeAt i.opcode = modeAt j.opcode := by rw [modeAt_opcode, modeAt_opcode, hmd]
  exact List.inj_on_of_nodup_map (nodup_modesInMap i.mnemonic) (opcode_mem_opcodesOf i) hj sameMode

namespace Machine

/-- Settles O20: each mnemonic's modes in the map are R187's up to order, and none of them has two opcodes. -/
theorem modesOfMnemonics : Obligations.ModesOfMnemonics := by
  unfold Obligations.ModesOfMnemonics
  refine ⟨fun mn md => ?_, fun i j => opcode_eq_of_mnemonic_mode⟩
  rw [← mem_modesInMap_iff, ← List.mem_map_of_injective (Option.some_injective Mode)]
  suffices samePerm : (modesInMap mn).Perm _ from samePerm.mem_iff
  revert mn
  exact forall_mnemonic (by decide +kernel)

/-! ## Address arithmetic as numbers -/

theorem zext16_eq_ofNat (v : Byte) : zext16 v = BitVec.ofNat 16 v.toNat :=
  (BitVec.ofNat_toNat 16 v).symm

/-- A byte sum wraps inside page 0 (R175, R176). -/
theorem zext16_add (z v : Byte) : zext16 (z + v) = BitVec.ofNat 16 ((z.toNat + v.toNat) % 256) := by
  rw [zext16_eq_ofNat, BitVec.toNat_add]

theorem zext16_add_one (z : Byte) : zext16 (z + 1) = BitVec.ofNat 16 ((z.toNat + 1) % 256) :=
  zext16_add z 1

/-- A word sum wraps modulo 65536 (R178, R179). -/
theorem word_add_eq_ofNat (a b : Word) : a + b = BitVec.ofNat 16 ((a.toNat + b.toNat) % 65536) := by
  apply BitVec.eq_of_toNat_eq
  simp

/-- A word plus a signed byte, modulo 65536 (R183). -/
theorem word_add_sext16 (a : Word) (d : Byte) : a + sext16 d = BitVec.ofInt 16 (a.toNat + d.toInt) := by
  have signed : sext16 d = BitVec.ofInt 16 d.toInt := rfl
  rw [BitVec.ofInt_add, ← signed, BitVec.ofInt_natCast, BitVec.ofNat_toNat, BitVec.setWidth_eq]

/-- MemRead16 with its second address as a number (R53). -/
theorem memRead16_eq (s : State) (w : Word) :
    s.memRead16 w = s.memRead (BitVec.ofNat 16 ((w.toNat + 1) % 65536)) ++ s.memRead w := by
  have next : w + 1 = BitVec.ofNat 16 ((w.toNat + 1) % 65536) := word_add_eq_ofNat w 1
  rw [← next]
  rfl

/-- MemReadZP16 with both addresses as numbers (R54). -/
theorem memReadZP16_eq (s : State) (z : Byte) :
    s.memReadZP16 z =
      wordOf (s.memRead (BitVec.ofNat 16 ((z.toNat + 1) % 256))) (s.memRead (BitVec.ofNat 16 z.toNat)) := by
  rw [State.memReadZP16, zext16_add_one, zext16_eq_ofNat]

/-- The pointer of indx, indexed inside page 0 (R181). -/
theorem memReadZP16_add (s : State) (z v : Byte) :
    s.memReadZP16 (z + v) = s.memRead (BitVec.ofNat 16 ((z.toNat + v.toNat + 1) % 256)) ++
      s.memRead (BitVec.ofNat 16 ((z.toNat + v.toNat) % 256)) := by
  rw [memReadZP16_eq, BitVec.toNat_add, Nat.mod_add_mod]
  rfl

/-- The address of indy: the pointer's word plus an index (R182). -/
theorem memReadZP16_add_zext16 (s : State) (z v : Byte) :
    s.memReadZP16 z + zext16 v = BitVec.ofNat 16
      ((256 * (s.memRead (BitVec.ofNat 16 ((z.toNat + 1) % 256))).toNat +
        (s.memRead (BitVec.ofNat 16 z.toNat)).toNat + v.toNat) % 65536) := by
  rw [memReadZP16_eq, word_add_eq_ofNat, toNat_wordOf, toNat_zext16]

/-- A form that is not immediate is read at its effective address (R185). -/
theorem readOperand_eq_map_resolve (s : State) {o : Operand} (h : o.mode ≠ .imm) :
    s.readOperand o = (s.resolve o).map s.memRead := by
  cases o with
  | imm v => exact absurd rfl h
  | _ => rfl

/-! ## The modes few opcodes use -/

/-- Zero-page-Y is the mode of 0xB6 and 0x96 alone, absolute-indirect of 0x6C, relative of the eight branches:
a check of the 256 bytes. -/
theorem modeAt_rare (opc : Byte) :
    (modeAt opc = some .zpy ↔ opc ∈ [0xB6#8, 0x96#8]) ∧
    (modeAt opc = some .ind ↔ opc = 0x6C#8) ∧
    (modeAt opc = some .rel ↔
      opc ∈ [0x10#8, 0x30#8, 0x50#8, 0x70#8, 0x90#8, 0xB0#8, 0xD0#8, 0xF0#8]) := by
  revert opc
  decide +kernel

/-- Settles O19: each mode by the number its address sum or pointer word is, the rare modes by their opcodes. -/
theorem effectiveAddresses : Obligations.EffectiveAddresses := by
  unfold Obligations.EffectiveAddresses
  refine ⟨fun s z w => ?_, fun i => ?_, fun s v o => ⟨rfl, readOperand_eq_map_resolve s⟩⟩
  · refine ⟨congrArg some ?zp, congrArg some ?zpx, congrArg some ?zpy, rfl, congrArg some ?absx,
      congrArg some ?absy, congrArg some ?ind, congrArg some ?indx, congrArg some ?indy, congrArg some ?rel⟩
    case zp => exact zext16_eq_ofNat z
    case zpx => exact zext16_add z s.x
    case zpy => exact zext16_add z s.y
    case absx => rw [word_add_eq_ofNat, toNat_zext16]
    case absy => rw [word_add_eq_ofNat, toNat_zext16]
    case ind => exact memRead16_eq s w
    case indx => exact memReadZP16_add s z s.x
    case indy => exact memReadZP16_add_zext16 s z s.y
    case rel => exact word_add_sext16 s.pc z
  · simpa using modeAt_rare i.opcode

end Machine

end Sys2Proof
end

section
/-! Proofs of the family 43_load_store.md: the loads (R202 to R204), the stores (R205 to R207) and the register
transfers (R208 to R213). -/

namespace Sys2Proof

/-! ## The encodings of a mnemonic -/

/-- The opcodes the map has for a mnemonic, each with its mode (R84). -/
def formsOf (mn : Mnemonic) : List (Byte × Option Mode) := (opcodesOf mn).map fun opc => (opc, modeAt opc)

/-- An instruction has a mnemonic exactly when its opcode and mode are one of the mnemonic's forms. -/
theorem mnemonic_eq_iff_mem_formsOf (i : Instr) (mn : Mnemonic) :
    i.mnemonic = mn ↔ (i.opcode, some i.mode) ∈ formsOf mn := by
  constructor
  · rintro rfl
    exact List.mem_map.mpr ⟨i.opcode, opcode_mem_opcodesOf i, by rw [modeAt_opcode]⟩
  · intro h
    obtain ⟨opc, hmem, hpair⟩ := List.mem_map.mp h
    have hopc : opc = i.opcode := congrArg Prod.fst hpair
    have hmn : mnemonicAt opc = some mn := of_decide_eq_true (List.mem_filter.mp hmem).2
    rw [hopc, mnemonicAt_opcode] at hmn
    exact Option.some.inj hmn

/-- A list of opcodes with modes says which instructions have a mnemonic when it is the mnemonic's forms up to
order. -/
theorem mnemonic_eq_iff_mem_of_perm {mn : Mnemonic} {rows : List (Byte × Mode)}
    (h : (formsOf mn).Perm (rows.map (Prod.map id some))) (i : Instr) :
    i.mnemonic = mn ↔ (i.opcode, i.mode) ∈ rows := by
  have pairInjective : Function.Injective (Prod.map id some : Byte × Mode → Byte × Option Mode) :=
    Function.injective_id.prodMap (Option.some_injective Mode)
  rw [mnemonic_eq_iff_mem_formsOf, h.mem_iff]
  exact List.mem_map_of_injective pairInjective (a := (i.opcode, i.mode))

namespace Machine

/-! ## A register takes a value and N and Z follow it -/

/-- N and Z are of the value, and the other flags and memory are those of a state that shares P, the
parameters and memory with the one updated (R144): the case of one whose register was just written. -/
theorem updateNZ_after_register_write {s u : State} (v : Byte) (hp : u.p = s.p) (hcfg : u.cfg = s.cfg)
    (hmem : u.mem = s.mem) :
    NZFrom v (u.updateNZ v) ∧ FlagsKeptBut [.n, .z] s (u.updateNZ v) ∧ MemoryKept s (u.updateNZ v) := by
  have sameBytes : ∀ ad, u.memRead ad = s.memRead ad := fun ad => by rw [State.memRead, State.memRead, hmem]
  obtain ⟨hu, hkept⟩ := flagsKeptBut_updateNZ u v
  exact ⟨nzFrom_updateNZ u v, ⟨hu, fun f hne hout => (hkept f hne hout).trans (State.flag_congr hp hcfg f)⟩,
    fun ad => (State.memRead_updateNZ u v ad).trans (sameBytes ad)⟩

/-- A load instruction reads its operand value (R185), writes it into its register by `load`, which keeps P, the
parameters and memory (R200), and sets N and Z from it: LDA, LDX and LDY at once. -/
theorem exec_load {i : Instr} {mn : Mnemonic} {s : State} {load : State → Byte → State} (hmn : i.mnemonic = mn)
    (heffect : ∀ t, Effect mn i.operand s t →
      ∃ m, s.readOperand i.operand = some m ∧ t = (load s m).updateNZ m)
    (hload : ∀ m, (load s m).p = s.p ∧ (load s m).cfg = s.cfg ∧ (load s m).mem = s.mem) :
    ∃ m t, s.readOperand i.operand = some m ∧ exec i s = .next t ∧ t = { load s m with p := t.p } ∧
      NZFrom m t ∧ FlagsKeptBut [.n, .z] s t ∧ MemoryKept s t := by
  obtain ⟨t, ht, hE⟩ := exec_effect i s
  obtain ⟨m, hm, rfl⟩ := heffect t (hmn ▸ hE)
  obtain ⟨hp, hcfg, hmem⟩ := hload m
  exact ⟨m, _, hm, ht, State.updateNZ_eq _ m, updateNZ_after_register_write m hp hcfg hmem⟩

/-! The loads' theorems have a namespace of their own: in `Machine` their names would be those of the model's
register writes. -/

namespace Loads

/-- Settles O27: the encodings are the map's, and the effect of LDA is a write of A, then N and Z of it. -/
theorem loadA : Obligations.LoadA := by
  unfold Obligations.LoadA
  refine ⟨mnemonic_eq_iff_mem_of_perm (by decide +kernel), fun i s hmn => ?_⟩
  exact exec_load (load := Machine.loadA) hmn (fun _ hE => hE) fun _ => ⟨rfl, rfl, rfl⟩

/-- Settles O28: the encodings are the map's, and the effect of LDX is a write of X, then N and Z of it. -/
theorem loadX : Obligations.LoadX := by
  unfold Obligations.LoadX
  refine ⟨mnemonic_eq_iff_mem_of_perm (by decide +kernel), fun i s hmn => ?_⟩
  exact exec_load (load := Machine.loadX) hmn (fun _ hE => hE) fun _ => ⟨rfl, rfl, rfl⟩

/-- Settles O29: the encodings are the map's, and the effect of LDY is a write of Y, then N and Z of it. -/
theorem loadY : Obligations.LoadY := by
  unfold Obligations.LoadY
  refine ⟨mnemonic_eq_iff_mem_of_perm (by decide +kernel), fun i s hmn => ?_⟩
  exact exec_load (load := Machine.loadY) hmn (fun _ hE => hE) fun _ => ⟨rfl, rfl, rfl⟩

end Loads

/-! ## Stores -/

/-- A store is one write to memory (R201, R61). -/
theorem storedAt_memWrite (s : State) (ea : Word) (v : Byte) : StoredAt ea v s (s.memWrite ea v) :=
  ⟨rfl, State.memRead_memWrite_same s ea v,
    fun _ had => State.memRead_memWrite_other s v (List.mem_singleton.not.mp had)⟩

/-- A store instruction is the one write of its register at the address resolved (R205, R206, R207). -/
theorem exec_store {i : Instr} {s : State} {v : Byte}
    (h : i.mnemonic = .sta ∧ v = s.a ∨ i.mnemonic = .stx ∧ v = s.x ∨ i.mnemonic = .sty ∧ v = s.y) :
    ∃ ea, s.resolve i.operand = some ea ∧ exec i s = .next (s.memWrite ea v) := by
  obtain ⟨t, ht, hE⟩ := exec_effect i s
  rcases h with ⟨hmn, rfl⟩ | ⟨hmn, rfl⟩ | ⟨hmn, rfl⟩ <;> rw [hmn] at hE <;> obtain ⟨ea, hea, rfl⟩ := hE <;>
    exact ⟨ea, hea, ht⟩

/-- Settles O30: the encodings are the map's, and the state after a store is that of one memory write. -/
theorem stores : Obligations.Stores := by
  unfold Obligations.Stores
  refine ⟨mnemonic_eq_iff_mem_of_perm (by decide +kernel), mnemonic_eq_iff_mem_of_perm (by decide +kernel),
    mnemonic_eq_iff_mem_of_perm (by decide +kernel), fun i s v h => ?_⟩
  obtain ⟨ea, hea, hexec⟩ := exec_store h
  exact ⟨ea, s.memWrite ea v, hea, hexec, rfl, storedAt_memWrite s ea v⟩

/-! ## Transfers -/

/-- Settles O31: five transfers are a register write, then N and Z of its value; TXS is a write of SP alone. -/
theorem transfers : Obligations.Transfers := by
  unfold Obligations.Transfers
  refine ⟨rfl, rfl, rfl, rfl, rfl, rfl, fun s => ⟨?tax, ?tay, ?txa, ?tya, ?tsx, ?txs⟩⟩
  case txs => exact ⟨_, rfl, rfl, fun _ => rfl⟩
  all_goals exact ⟨_, rfl, State.updateNZ_eq _ _, updateNZ_after_register_write _ rfl rfl rfl⟩

end Machine

end Sys2Proof
end

section
/-! Proofs of the family 44_inc_dec.md: increment and decrement of memory (R232, R233) and of X and Y (R234 to
R237). -/

namespace Sys2Proof.Machine

/-- One less modulo 256, in the spelling of `BitVec.toNat_add`. -/
theorem toNat_sub_one (v : Byte) : (v - 1).toNat = (v.toNat + 255) % 256 :=
  calc (v - 1).toNat
      = (255 + v.toNat) % 256 := BitVec.toNat_sub v 1
    _ = (v.toNat + 255) % 256 := by rw [Nat.add_comm]

/-! ## INC and DEC -/

/-- INC and DEC write the byte at the address resolved back, one more or one less, and then set N and Z from it
(R230, R231). -/
theorem exec_inc_dec {i : Instr} (s : State) (h : i.mnemonic = .inc ∨ i.mnemonic = .dec) :
    ∃ ea new, s.resolve i.operand = some ea ∧
      new.toNat = ((s.memRead ea).toNat + (if i.mnemonic = .inc then 1 else 255)) % 256 ∧
      exec i s = .next ((s.memWrite ea new).updateNZ new) := by
  obtain ⟨t, ht, hE⟩ := exec_effect i s
  rcases h with hmn | hmn <;> rw [hmn] at hE ⊢ <;> obtain ⟨ea, hea, rfl⟩ := hE
  · exact ⟨ea, s.memRead ea + 1, hea, BitVec.toNat_add _ 1, ht⟩
  · exact ⟨ea, s.memRead ea - 1, hea, toNat_sub_one _, ht⟩

/-- Settles O32: the encodings are the map's, and the state after INC or DEC is that of one memory write, then N
and Z of the byte written. -/
theorem incDecMemory : Obligations.IncDecMemory := by
  unfold Obligations.IncDecMemory
  refine ⟨mnemonic_eq_iff_mem_of_perm (by decide +kernel), mnemonic_eq_iff_mem_of_perm (by decide +kernel),
    fun i s h => ?_⟩
  obtain ⟨ea, new, hea, hnew, hexec⟩ := exec_inc_dec s h
  have flagsKept : FlagsKeptBut [.n, .z] s ((s.memWrite ea new).updateNZ new) :=
    flagsKeptBut_updateNZ (s.memWrite ea new) new
  exact ⟨ea, new, _, hea, hnew, hexec, storedAt_memWrite_updateNZ s ea new, nzFrom_updateNZ _ new, flagsKept⟩

/-! ## INX, INY, DEX and DEY -/

/-- Settles O33: each is a register write, then N and Z of its value, which is one more or one less. -/
theorem incDecRegisters : Obligations.IncDecRegisters := by
  unfold Obligations.IncDecRegisters
  refine ⟨rfl, rfl, rfl, rfl, fun s => ⟨
    ⟨s.x + 1, _, rfl, BitVec.toNat_add s.x 1, ?inx⟩, ⟨s.y + 1, _, rfl, BitVec.toNat_add s.y 1, ?iny⟩,
    ⟨s.x - 1, _, rfl, toNat_sub_one s.x, ?dex⟩, ⟨s.y - 1, _, rfl, toNat_sub_one s.y, ?dey⟩⟩⟩
  all_goals exact ⟨State.updateNZ_eq _ _, updateNZ_after_register_write _ rfl rfl rfl⟩

end Sys2Proof.Machine
end

section
/-! Proofs of the family 45_arithmetic.md: ADC and SBC (R251, R252) and the compares (R254 to R256). -/

namespace Sys2Proof.Machine

/-- An instruction whose effect is `k` of its operand value completes, and does `k` of it (R185). -/
theorem exec_reader {i : Instr} {mn : Mnemonic} {s : State} {k : Byte → State} (hmn : i.mnemonic = mn)
    (heffect : ∀ t, Effect mn i.operand s t → ∃ m, s.readOperand i.operand = some m ∧ t = k m) :
    ∃ m, s.readOperand i.operand = some m ∧ exec i s = .next (k m) := by
  obtain ⟨t, ht, hE⟩ := exec_effect i s
  obtain ⟨m, hm, rfl⟩ := heffect t (hmn ▸ hE)
  exact ⟨m, hm, ht⟩

/-- A state with the same memory reads every byte alike. -/
theorem memoryKept_of_mem_eq {s t : State} (h : t.mem = s.mem) : MemoryKept s t := fun ad => by
  rw [State.memRead, State.memRead, h]

/-! ## The sum with carry -/

theorem nzFrom_addWithCarry (s : State) (m : Byte) : NZFrom (s.addWithCarry m).a (s.addWithCarry m) :=
  ⟨flag_addWithCarry s m .n, (flag_addWithCarry s m .z).trans (beq_eq_decide _ _)⟩

theorem flagsKeptBut_addWithCarry (s : State) (m : Byte) :
    FlagsKeptBut [.c, .z, .v, .n] s (s.addWithCarry m) := by
  refine ⟨flag_addWithCarry s m .u, fun f hu hout => ?_⟩
  cases f with
  | i | d | b => exact flag_addWithCarry s m _
  | u => exact absurd rfl hu
  | c | z | v | n => simp at hout

/-- The overflow rule as R143 writes it, two bits tested. -/
theorem overflowBit_eq_decide (a b r : Byte) :
    overflowBit a b r = decide (((a ^^^ r) &&& 0x80#8) ≠ 0#8 ∧ ((b ^^^ r) &&& 0x80#8) ≠ 0#8) := by
  simp only [overflowBit, bne, beq_eq_decide, Bool.decide_and, ne_eq, decide_not]

/-- Settles O34: the encodings are the map's, and ADC is the sum with carry of A and its operand value. -/
theorem adcResult : Obligations.AdcResult := by
  unfold Obligations.AdcResult
  refine ⟨mnemonic_eq_iff_mem_of_perm (by decide +kernel), fun i s hmn => ?_⟩
  obtain ⟨m, hm, hexec⟩ := exec_reader (k := s.addWithCarry) hmn fun _ hE => hE
  exact ⟨m, (s.addWithCarry m).a, s.addWithCarry m, hm, hexec, toNat_addWithCarry_a s m, addWithCarry_eq s m,
    flag_addWithCarry s m .c, (flag_addWithCarry s m .v).trans (overflowBit_eq_decide ..),
    nzFrom_addWithCarry s m, flagsKeptBut_addWithCarry s m, memoryKept_of_mem_eq (addWithCarry_mem s m)⟩

/-! ## The sum with the complement -/

theorem xor_FF_eq_not (m : Byte) : m ^^^ 0xFF = ~~~m :=
  BitVec.xor_allOnes

/-- The complement of a byte as a number. -/
theorem toNat_xor_FF (m : Byte) : (m ^^^ 0xFF).toNat = 255 - m.toNat := by
  rw [xor_FF_eq_not, BitVec.toNat_not]

/-- Adding the complement and the carry is subtracting with borrow (R252, D8). -/
theorem toNat_addWithCarry_xor_FF_a (s : State) (m : Byte) :
    ((s.addWithCarry (m ^^^ 0xFF)).a.toNat : Int) =
      ((s.a.toNat : Int) - m.toNat - (1 - (s.flag .c).toNat)) % 256 := by
  have hm := m.isLt
  rw [toNat_addWithCarry_a, toNat_xor_FF]
  omega

/-- The carry out of adding the complement says there was no borrow (R252, D8). -/
theorem flag_c_addWithCarry_xor_FF (s : State) (m : Byte) :
    (s.addWithCarry (m ^^^ 0xFF)).flag .c =
      decide ((s.a.toNat : Int) - m.toNat - (1 - (s.flag .c).toNat) ≥ 0) := by
  have hm := m.isLt
  rw [flag_addWithCarry, toNat_xor_FF, decide_eq_decide]
  omega

/-- Overflow against the complement: the operands' signs differ, and the result's is not A's (R252). -/
theorem overflowBit_xor_FF (a m r : Byte) :
    overflowBit a (m ^^^ 0xFF) r = (a.msb != m.msb && r.msb != a.msb) := by
  have signFlips : (m ^^^ 0xFF).msb = !m.msb := by rw [xor_FF_eq_not, BitVec.msb_not]; rfl
  rw [overflowBit_eq, signFlips]
  cases a.msb <;> cases m.msb <;> rfl

/-- Settles O35: the encodings are the map's, and SBC is the sum with carry of A and the complement of its
operand value, which is the difference with borrow. -/
theorem sbcResult : Obligations.SbcResult := by
  unfold Obligations.SbcResult
  refine ⟨mnemonic_eq_iff_mem_of_perm (by decide +kernel), fun i s hmn => ?_⟩
  obtain ⟨m, hm, hexec⟩ := exec_reader (k := fun m => s.addWithCarry (m ^^^ 0xFF)) hmn fun _ hE => hE
  have hv := flag_addWithCarry s (m ^^^ 0xFF) .v
  exact ⟨m, (s.addWithCarry (m ^^^ 0xFF)).a, s.addWithCarry (m ^^^ 0xFF), hm, hexec, addWithCarry_eq s _,
    toNat_addWithCarry_xor_FF_a s m, flag_c_addWithCarry_xor_FF s m, hv, hv.trans (overflowBit_xor_FF ..),
    nzFrom_addWithCarry s _, flagsKeptBut_addWithCarry s _, memoryKept_of_mem_eq (addWithCarry_mem s _)⟩

/-! ## The compares -/

theorem flag_c_compare (s : State) (reg m : Byte) :
    (s.compare reg m).flag .c = decide (reg.toNat ≥ m.toNat) :=
  flag_compare s reg m .c

theorem flag_z_compare (s : State) (reg m : Byte) : (s.compare reg m).flag .z = decide (reg = m) := by
  rw [flag_compare, beq_eq_decide, decide_eq_decide]
  exact sub_eq_zero

/-- N is bit 7 of the difference: the difference modulo 256 is in the upper half (R253). -/
theorem flag_n_compare (s : State) (reg m : Byte) :
    (s.compare reg m).flag .n = decide ((reg.toNat + 256 - m.toNat) % 256 ≥ 128) := by
  have hm := m.isLt
  have difference : (reg - m).toNat = (reg.toNat + 256 - m.toNat) % 256 := by
    rw [BitVec.toNat_sub]
    omega
  rw [← difference]
  calc (s.compare reg m).flag .n
      = (reg - m).msb := flag_compare s reg m .n
    _ = decide ((reg - m).toNat ≥ 128) := BitVec.msb_eq_decide _

theorem flagsKeptBut_compare (s : State) (reg m : Byte) : FlagsKeptBut [.c, .z, .n] s (s.compare reg m) := by
  refine ⟨flag_compare s reg m .u, fun f hu hout => ?_⟩
  cases f with
  | v | i | d | b => exact flag_compare s reg m _
  | u => exact absurd rfl hu
  | c | z | n => simp at hout

/-- CMP, CPX and CPY compare their register with the operand value (R254, R255, R256). -/
theorem exec_compare {i : Instr} {s : State} {reg : Byte}
    (h : i.mnemonic = .cmp ∧ reg = s.a ∨ i.mnemonic = .cpx ∧ reg = s.x ∨ i.mnemonic = .cpy ∧ reg = s.y) :
    ∃ m, s.readOperand i.operand = some m ∧ exec i s = .next (s.compare reg m) := by
  rcases h with ⟨hmn, rfl⟩ | ⟨hmn, rfl⟩ | ⟨hmn, rfl⟩ <;> exact exec_reader hmn fun _ hE => hE

/-- Settles O37: the encodings are the map's, and each instruction is the comparison of its register with its
operand value. -/
theorem compares : Obligations.Compares := by
  unfold Obligations.Compares
  refine ⟨mnemonic_eq_iff_mem_of_perm (by decide +kernel), mnemonic_eq_iff_mem_of_perm (by decide +kernel),
    mnemonic_eq_iff_mem_of_perm (by decide +kernel), fun i s reg h => ?_⟩
  obtain ⟨m, hm, hexec⟩ := exec_compare h
  exact ⟨m, s.compare reg m, hm, hexec, compare_eq s reg m, flag_c_compare s reg m, flag_z_compare s reg m,
    flag_n_compare s reg m, flagsKeptBut_compare s reg m, memoryKept_of_mem_eq (compare_mem s reg m)⟩

end Sys2Proof.Machine
end

section
/-! Proofs of the family 46_logical.md: AND, ORA and EOR (R270 to R272) and BIT (R273). -/

namespace Sys2Proof.Machine

/-! ## AND, ORA and EOR -/

/-- An instruction whose effect puts `f` of A and its operand value into A completes, and A's bits are then the
operation `op` of the old ones and the value's, when `f` is `op` bit by bit. -/
theorem exec_bitwise {i : Instr} {mn : Mnemonic} {s : State} {f : Byte → Byte → Byte} {op : Bool → Bool → Bool}
    (hmn : i.mnemonic = mn)
    (heffect : ∀ t, Effect mn i.operand s t → ∃ m, s.readOperand i.operand = some m ∧ t = s.setANZ (f s.a m))
    (hbits : ∀ v w k, (f v w).getLsbD k = op (v.getLsbD k) (w.getLsbD k)) :
    ∃ m r, s.readOperand i.operand = some m ∧ exec i s = .next (s.setANZ r) ∧
      ∀ k, r.getLsbD k = op (s.a.getLsbD k) (m.getLsbD k) := by
  obtain ⟨m, hm, hexec⟩ := exec_reader (k := fun m => s.setANZ (f s.a m)) hmn heffect
  exact ⟨m, f s.a m, hm, hexec, hbits s.a m⟩

/-- AND, ORA and EOR put into A the byte whose bits are the operation of A's and the operand value's, and set
N and Z from it (R270, R271, R272). -/
theorem exec_logical {i : Instr} {s : State} {op : Bool → Bool → Bool}
    (h : i.mnemonic = .and ∧ op = and ∨ i.mnemonic = .ora ∧ op = or ∨ i.mnemonic = .eor ∧ op = xor) :
    ∃ m r, s.readOperand i.operand = some m ∧ exec i s = .next (s.setANZ r) ∧
      ∀ k, r.getLsbD k = op (s.a.getLsbD k) (m.getLsbD k) := by
  rcases h with ⟨hmn, rfl⟩ | ⟨hmn, rfl⟩ | ⟨hmn, rfl⟩
  · exact exec_bitwise (f := (· &&& ·)) hmn (fun _ hE => hE) fun _ _ _ => BitVec.getLsbD_and
  · exact exec_bitwise (f := (· ||| ·)) hmn (fun _ hE => hE) fun _ _ _ => BitVec.getLsbD_or
  · exact exec_bitwise (f := (· ^^^ ·)) hmn (fun _ hE => hE) fun _ _ _ => BitVec.getLsbD_xor

/-- Settles O38: the encodings are the map's, and each instruction is a write of the bitwise result to A, then
N and Z of it. -/
theorem logicals : Obligations.Logicals := by
  unfold Obligations.Logicals
  refine ⟨mnemonic_eq_iff_mem_of_perm (by decide +kernel), mnemonic_eq_iff_mem_of_perm (by decide +kernel),
    mnemonic_eq_iff_mem_of_perm (by decide +kernel), fun i s op h => ?_⟩
  obtain ⟨m, r, hm, hexec, hbits⟩ := exec_logical h
  exact ⟨m, r, s.setANZ r, hm, hexec, State.updateNZ_eq _ r, fun k _ => hbits k,
    updateNZ_after_register_write r rfl rfl rfl⟩

/-! ## BIT -/

/-- What BIT does with its operand value (R273): Z of the AND with A, N and V from bits 7 and 6 of the value. -/
def State.testBits (s : State) (m : Byte) : State :=
  ((s.updateZero (s.a &&& m)).updateNegative m).writeFlag .v (m.getLsbD 6)

/-- BIT is `testBits` of its operand value (R273). -/
theorem exec_bit {i : Instr} (s : State) (hmn : i.mnemonic = .bit) :
    ∃ m, s.readOperand i.operand = some m ∧ exec i s = .next (s.testBits m) :=
  exec_reader hmn fun _ hE => hE

theorem testBits_eq (s : State) (m : Byte) : s.testBits m = { s with p := (s.testBits m).p } := by
  refine State.eq_with_p ?_ ?_ ?_ ?_ ?_ ?_ ?_ ?_ <;> simp [State.testBits]

/-- The flags after BIT (R273). -/
theorem flag_testBits (s : State) (m : Byte) (g : Flag) :
    (s.testBits m).flag g =
      match g with
      | .u => true
      | .z => decide (s.a &&& m = 0x00#8)
      | .n => m.getLsbD 7
      | .v => m.getLsbD 6
      | .c | .i | .d | .b => s.flag g := by
  simp only [State.testBits, State.updateZero, State.updateNegative, negativeBit, flag_writeFlag]
  cases g <;> simp [beq_eq_decide]

theorem flagsKeptBut_testBits (s : State) (m : Byte) : FlagsKeptBut [.z, .n, .v] s (s.testBits m) := by
  refine ⟨flag_testBits s m .u, fun f hu hout => ?_⟩
  cases f with
  | c | i | d | b => exact flag_testBits s m _
  | u => exact absurd rfl hu
  | z | n | v => simp at hout

/-- Settles O39: the encodings are the map's, and BIT is `testBits` of its operand value. -/
theorem bitTest : Obligations.BitTest := by
  unfold Obligations.BitTest
  refine ⟨mnemonic_eq_iff_mem_of_perm (by decide +kernel), fun i s hmn => ?_⟩
  obtain ⟨m, hm, hexec⟩ := exec_bit s hmn
  have memorySame : (s.testBits m).mem = s.mem := by rw [testBits_eq]
  exact ⟨m, s.testBits m, hm, hexec, testBits_eq s m, flag_testBits s m .z, flag_testBits s m .n,
    flag_testBits s m .v, flagsKeptBut_testBits s m, memoryKept_of_mem_eq memorySame⟩

end Sys2Proof.Machine
end

section
/-! Proofs of the family 47_shift_rotate.md: ASL, LSR, ROL and ROR (R290 to R293). -/

namespace Sys2Proof.Machine

/-! ## The byte that is moved -/

/-- The byte a shift or rotate makes of the old one and the carry in (R290 to R293); any other mnemonic keeps
it. -/
def shiftedByte (mn : Mnemonic) (old : Byte) (c : Bool) : Byte :=
  match mn with
  | .asl => old <<< 1
  | .lsr => old >>> 1
  | .rol => old <<< 1 ||| carryByte c
  | .ror => old >>> 1 ||| carryByte c <<< 7
  | _ => old

/-- The bit shifted out: bit 7 to the left, bit 0 to the right (R290 to R293). -/
def shiftedOut (mn : Mnemonic) (old : Byte) : Bool :=
  if mn = .asl ∨ mn = .rol then old.getLsbD 7 else old.getLsbD 0

theorem toNat_carryByte (c : Bool) : (carryByte c).toNat = c.toNat := by
  cases c <;> rfl

/-- The old C enters bit 7 as 128 (R293). -/
theorem toNat_carryByte_shiftLeft_seven (c : Bool) : (carryByte c <<< 7).toNat = 128 * c.toNat := by
  cases c <;> rfl

theorem toNat_shiftLeft_one (v : Byte) : (v <<< 1).toNat = 2 * v.toNat % 256 := by
  rw [BitVec.toNat_shiftLeft, Nat.shiftLeft_eq, Nat.mul_comm]

theorem toNat_ushiftRight_one (v : Byte) : (v >>> 1).toNat = v.toNat / 2 := by
  rw [BitVec.toNat_ushiftRight, Nat.shiftRight_one]

/-- Bit 0 of a byte shifted left is free for the carry, so putting it there is adding it (R292). -/
theorem toNat_rotateLeft (v : Byte) (c : Bool) :
    (v <<< 1 ||| carryByte c).toNat = (2 * v.toNat + c.toNat) % 256 := by
  have hc := c.toNat_le
  have even : 2 * v.toNat % 256 = 2 ^ 1 * (v.toNat % 128) := by omega
  calc (v <<< 1 ||| carryByte c).toNat
      = 2 ^ 1 * (v.toNat % 128) ||| c.toNat := by
        rw [BitVec.toNat_or, toNat_shiftLeft_one, toNat_carryByte, even]
    _ = 2 ^ 1 * (v.toNat % 128) + c.toNat := (Nat.two_pow_add_eq_or_of_lt (by omega) _).symm
    _ = (2 * v.toNat + c.toNat) % 256 := by omega

/-- Bit 7 of a byte shifted right is free for the carry, so putting it there is adding 128 (R293). -/
theorem toNat_rotateRight (v : Byte) (c : Bool) :
    (v >>> 1 ||| carryByte c <<< 7).toNat = v.toNat / 2 + 128 * c.toNat := by
  have hv := v.isLt
  calc (v >>> 1 ||| carryByte c <<< 7).toNat
      = 2 ^ 7 * c.toNat ||| v.toNat / 2 := by
        rw [BitVec.toNat_or, toNat_ushiftRight_one, toNat_carryByte_shiftLeft_seven, Nat.or_comm]
    _ = 2 ^ 7 * c.toNat + v.toNat / 2 := (Nat.two_pow_add_eq_or_of_lt (by omega) _).symm
    _ = v.toNat / 2 + 128 * c.toNat := Nat.add_comm ..

/-! ## The end of a shift or rotate -/

/-- The writes of a shift or rotate, in their order: C, the target, then N and Z of the new byte (R294). -/
def State.writeShifted (s : State) (g : Target) (carry : Bool) (new : Byte) : State :=
  ((s.writeFlag .c carry).writeTarget g new).updateNZ new

/-- The flags after those writes (R290 to R293). -/
theorem flag_writeShifted (s : State) (g : Target) (carry : Bool) (new : Byte) (f : Flag) :
    (s.writeShifted g carry new).flag f =
      match f with
      | .u => true
      | .c => carry
      | .n => new.getLsbD 7
      | .z => decide (new = 0x00#8)
      | .i | .d | .b | .v => s.flag f := by
  simp only [State.writeShifted, flag_updateNZ, State.flag_writeTarget, flag_writeFlag]
  cases f <;> simp [beq_eq_decide]

theorem flagsKeptBut_writeShifted (s : State) (g : Target) (carry : Bool) (new : Byte) :
    FlagsKeptBut [.c, .n, .z] s (s.writeShifted g carry new) := by
  refine ⟨flag_writeShifted s g carry new .u, fun f hu hout => ?_⟩
  cases f with
  | i | d | b | v => exact flag_writeShifted s g carry new _
  | u => exact absurd rfl hu
  | c | n | z => simp at hout

/-- A store from a state that differs in P alone is a store, since a store says nothing of P. -/
theorem storedAt_of_eq_with_p {ea : Word} {v : Byte} {s u t : State} (hu : u = { s with p := u.p })
    (h : StoredAt ea v u t) : StoredAt ea v s t := by
  rw [hu] at h
  exact h

/-- A form's target is A in the accumulator mode and the byte at its effective address in the others (R186). -/
theorem cases_of_target_eq_some {s : State} {o : Operand} {g : Target} (h : s.target o = some g) :
    (o.mode = .acc ∧ g = .acc) ∨ (o.mode ≠ .acc ∧ ∃ ea, s.resolve o = some ea ∧ g = .mem ea) := by
  have hmode : o.mode ∉ [Mode.imp, .imm] := by
    rw [← target_eq_none_iff s, h]
    exact Option.some_ne_none g
  rcases target_cases s hmode with ⟨hacc, htarget⟩ | ⟨hacc, ea, hea, htarget⟩
  · exact .inl ⟨hacc, Option.some.inj (h.symm.trans htarget)⟩
  · exact .inr ⟨hacc, ea, hea, Option.some.inj (h.symm.trans htarget)⟩

/-- The writes of a shift or rotate are the read-modify-write of its target (R186). -/
theorem writesBack_writeShifted {i : Instr} {s : State} {g : Target} (hg : s.target i.operand = some g)
    (carry : Bool) (new : Byte) : WritesBack i (s.readTarget g) new s (s.writeShifted g carry new) := by
  rcases cases_of_target_eq_some hg with ⟨hacc, rfl⟩ | ⟨hacc, ea, hea, rfl⟩
  · refine .inl ⟨hacc, rfl, State.eq_with_p (s := { s with a := new }) ?_ ?_ ?_ ?_ ?_ ?_ ?_ ?_,
      memoryKept_of_mem_eq ?_⟩ <;> simp [State.writeShifted, State.writeTarget]
  · exact .inr ⟨hacc, ea, hea, rfl,
      storedAt_of_eq_with_p (State.writeFlag_eq s .c carry) (storedAt_memWrite_updateNZ _ ea new)⟩

/-! ## The instructions -/

/-- A shift or rotate writes the moved byte of its target back, with C the bit shifted out. -/
theorem exec_shift {i : Instr} (s : State) (h : i.mnemonic ∈ [Mnemonic.asl, .lsr, .rol, .ror]) :
    ∃ g, s.target i.operand = some g ∧
      exec i s = .next (s.writeShifted g (shiftedOut i.mnemonic (s.readTarget g))
        (shiftedByte i.mnemonic (s.readTarget g) (s.flag .c))) := by
  obtain ⟨t, ht, hE⟩ := exec_effect i s
  simp only [List.mem_cons, List.not_mem_nil, or_false] at h
  rcases h with hmn | hmn | hmn | hmn <;> rw [hmn] at hE ⊢ <;> obtain ⟨g, _, hg, rfl, rfl⟩ := hE <;>
    exact ⟨g, hg, ht⟩

/-- Settles O40: the encodings are the map's, and each instruction is the write-back of its target's moved byte,
which as a number is the old one doubled or halved, with the old C at the free end for a rotate. -/
theorem shifts : Obligations.Shifts := by
  unfold Obligations.Shifts
  refine ⟨mnemonic_eq_iff_mem_of_perm (by decide +kernel), mnemonic_eq_iff_mem_of_perm (by decide +kernel),
    mnemonic_eq_iff_mem_of_perm (by decide +kernel), mnemonic_eq_iff_mem_of_perm (by decide +kernel),
    fun i s h => ?_⟩
  obtain ⟨g, hg, hexec⟩ := exec_shift s h
  refine ⟨s.readTarget g, _, _, hexec, writesBack_writeShifted hg _ _, fun hmn => ?asl, fun hmn => ?lsr,
    fun hmn => ?rol, fun hmn => ?ror, flag_writeShifted s g _ _ .c, nzFrom_updateNZ _ _,
    flagsKeptBut_writeShifted s g _ _⟩ <;> rw [hmn]
  case asl => exact toNat_shiftLeft_one _
  case lsr => exact toNat_ushiftRight_one _
  case rol => exact toNat_rotateLeft _ _
  case ror => exact toNat_rotateRight _ _

end Sys2Proof.Machine
end

section
/-! Proofs of the family 48_stack.md: push and pull (R310 to R312), PHA and PHP (R313, R314), PLA and PLP (R315,
R316). -/

namespace Sys2Proof.Machine

/-! ## Push and pull -/

/-- A push changes no byte but the one at the stack address of the old SP (R311). -/
theorem memoryKeptBut_push (s : State) (v : Byte) : MemoryKeptBut [stackAddr s.sp] s (s.push v) :=
  fun _ had => State.memRead_push_other s v (List.mem_singleton.not.mp had)

/-- A push changes SP and memory alone (R311). -/
theorem push_eq (s : State) (v : Byte) : s.push v = { s with sp := s.sp - 1, mem := (s.push v).mem } := rfl

/-- A pull after a push gives the byte back and restores SP: the increment undoes the decrement, so the pull
reads at the address the push wrote (R311, R312). -/
theorem pull_push (s : State) (v : Byte) (h : s.mem.wf = true) :
    (s.push v).pull = (v, { s with mem := (s.push v).mem }) := by
  have spRestored : (s.push v).sp + 1 = s.sp := BitVec.sub_add_cancel s.sp 1
  refine Prod.ext ?byte ?state
  case byte => rw [State.pull_fst, spRestored, State.memRead_push_same s v h]
  case state => rw [State.pull_snd, spRestored, push_eq]

/-- Settles O25: a push is one memory write and a decrement, a pull is an increment and a read, and the second
undoes the first. -/
theorem pushPull : Obligations.PushPull := by
  unfold Obligations.PushPull
  refine fun s v => ⟨toNat_stackAddr s.sp, ?push, ?pull, pull_push s v⟩
  case push => exact ⟨rfl, toNat_sub_one s.sp, memoryKeptBut_push s v, State.memRead_push_same s v⟩
  case pull => exact ⟨rfl, BitVec.toNat_add s.sp 1, rfl⟩

/-! ## PHA and PHP -/

/-- Settles O41: PHA is a push of A, and PHP a push of P with B and U set. -/
theorem pushInstructions : Obligations.PushInstructions := by
  unfold Obligations.PushInstructions
  refine ⟨rfl, rfl, fun s => ⟨?pha, ?php⟩⟩
  case pha =>
    exact ⟨s.push s.a, rfl, push_eq s s.a, State.memRead_push_same s s.a, memoryKeptBut_push s s.a⟩
  case php =>
    refine ⟨s.pushedStatus, s.push s.pushedStatus, rfl, push_eq s _, fun f => ?_,
      State.memRead_push_same s _, memoryKeptBut_push s _⟩
    simp [flagOf_pushedStatus, Bool.or_comm, Bool.or_left_comm]

/-! ## PLA and PLP -/

/-- C, Z, I, D, V and N after LoadStatus are the byte's (R317). -/
theorem flag_loadStatus_of_loaded (s : State) (v : Byte) {f : Flag} (hf : f ∈ [Flag.c, .z, .i, .d, .v, .n]) :
    (s.loadStatus v).flag f = flagOf s.cfg.layout f v := by
  have notKept : ∀ g ∈ [Flag.c, .z, .i, .d, .v, .n], g ≠ .u ∧ g ≠ .b := by decide
  obtain ⟨hu, hb⟩ := notKept f hf
  rw [flag_loadStatus, if_neg hu, if_neg hb]

/-- LoadStatus keeps B (R317). -/
@[simp] theorem flag_b_loadStatus (s : State) (v : Byte) : (s.loadStatus v).flag .b = s.flag .b := by
  simp [flag_loadStatus]

/-- Settles O42: PLA is a pull into A, then N and Z of the byte; PLP is a pull, then LoadStatus of the byte. -/
theorem pullInstructions : Obligations.PullInstructions := by
  unfold Obligations.PullInstructions
  refine ⟨rfl, rfl, fun s v hv => ?_⟩
  subst hv
  refine ⟨?pla, ?plp⟩
  case pla => exact ⟨_, rfl, State.updateNZ_eq _ _, updateNZ_after_register_write _ rfl rfl rfl⟩
  case plp =>
    exact ⟨_, rfl, State.loadStatus_eq _ _, fun f hf => flag_loadStatus_of_loaded _ _ hf, flag_b_loadStatus _ _,
      flag_u_loadStatus _ _, State.memRead_loadStatus _ _⟩

end Sys2Proof.Machine
end

section
/-! Proofs about the decoder and the encoder (30_encoding.md), and of the instruction a step fetches with
them (40_engine.md, R444). -/

namespace Sys2Proof

/-! ## The encoding of an instruction decodes to it -/

/-- The instruction that an entry of the opcode map makes from an operand form (R82, R84). -/
def OpEntry.instrOf (e : OpEntry) (o : Operand) : Option Instr :=
  match e with
  | .noInstr => none
  | .f0 i => some i
  | .f1 make => some (make (Machine.op8Of o))
  | .f2 make => some (make (Machine.op16Of o))

/-- The map's entry at an instruction's opcode makes the instruction from its operand (R83, R84). -/
theorem instrOf_opcodeEntry_opcode (i : Instr) : (opcodeEntry i.opcode).instrOf i.operand = some i := by
  cases i <;> simp only [Instr.opcode, Instr.operand, Instr.encoding] <;> rfl

/-- Decoding undoes encoding, with any bytes left over: by the format of the opcode's entry (R80, R82). -/
theorem decode_encode_append (i : Instr) (rest : List Byte) : decode (encode i ++ rest) = .ok (i, rest) := by
  have hmade := instrOf_opcodeEntry_opcode i
  cases hentry : opcodeEntry i.opcode with
  | noInstr => simp [hentry, OpEntry.instrOf] at hmade
  | f0 j =>
    have hj : j = i := by simpa [hentry, OpEntry.instrOf] using hmade
    have hencode := encode_f0 hentry
    rw [hj] at hencode
    simp [hencode, decode, hentry, hj]
  | f1 make =>
    have hi : make (Machine.op8Of i.operand) = i := by simpa [hentry, OpEntry.instrOf] using hmade
    have hencode := encode_f1 hentry (Machine.op8Of i.operand)
    rw [hi] at hencode
    simp [hencode, decode, hentry, hi]
  | f2 make =>
    have hi : make (Machine.op16Of i.operand) = i := by simpa [hentry, OpEntry.instrOf] using hmade
    have hencode := encode_f2 hentry (Machine.op16Of i.operand)
    rw [hi] at hencode
    simp [hencode, decode, hentry, hi]

/-- Bytes that decode to an instruction are its encoding and the bytes left over: by the format of the first
byte's entry and the operand bytes that follow it. -/
theorem eq_encode_append_of_decode {bs rest : List Byte} {i : Instr} (h : decode bs = .ok (i, rest)) :
    bs = encode i ++ rest := by
  cases bs with
  | nil => simp [decode] at h
  | cons opc tail =>
    cases hentry : opcodeEntry opc with
    | noInstr => simp [decode, hentry] at h
    | f0 j =>
      obtain ⟨rfl, rfl⟩ : j = i ∧ tail = rest := by simpa [decode, hentry] using h
      rw [encode_f0 hentry]
      rfl
    | f1 make =>
      match tail with
      | [] => simp [decode, hentry] at h
      | op8 :: tail =>
        obtain ⟨rfl, rfl⟩ : make op8 = i ∧ tail = rest := by simpa [decode, hentry] using h
        rw [encode_f1 hentry]
        rfl
    | f2 make =>
      match tail with
      | [] | [_] => simp [decode, hentry] at h
      | lo :: hi :: tail =>
        obtain ⟨rfl, rfl⟩ : make (wordOf hi lo) = i ∧ tail = rest := by simpa [decode, hentry] using h
        rw [encode_f2 hentry, loByte_wordOf, hiByte_wordOf]
        rfl

theorem decode_eq_ok_iff (bs rest : List Byte) (i : Instr) :
    decode bs = .ok (i, rest) ↔ bs = encode i ++ rest :=
  ⟨eq_encode_append_of_decode, fun h => h ▸ decode_encode_append i rest⟩

namespace Machine

/-- Settles O6: each direction by the format of the opcode's entry in the map. -/
theorem decodeEncodeAgree : Obligations.DecodeEncodeAgree := by
  unfold Obligations.DecodeEncodeAgree
  exact decode_eq_ok_iff

/-- Settles O7: each list of bytes is the encoding of its instruction, so it decodes to it. -/
theorem decodeWords : Obligations.DecodeWords := by
  unfold Obligations.DecodeWords
  and_intros <;> exact (decode_eq_ok_iff _ _ _).mpr rfl

/-! ## The instruction that a step runs -/

/-- A fetch at a wired-in opcode answers the instruction that the bytes at PC decode to, with PC past it (R111
to R113). -/
theorem fetch_of_decode {s : State} {i : Instr} {rest : List Byte} (hd : decode s.bytesAtPC = .ok (i, rest))
    (hw : i.wellFormed s.cfg = true) :
    s.fetch = .ready i { s with pc := s.pc + BitVec.ofNat 16 i.length } := by
  have hbytes : s.bytesAtPC = encode i ++ rest := eq_encode_append_of_decode hd
  have hopc : i.opcode = s.memRead s.pc := (congrArg (·.headD 0) hbytes).symm
  have hwired : wiredEntry s.cfg (s.memRead s.pc) = opcodeEntry (s.memRead s.pc) :=
    wiredEntry_of_isWired (hopc ▸ hw)
  have add_two : s.pc + 1 + 1 = s.pc + 2 := BitVec.add_assoc ..
  have add_three : s.pc + 2 + 1 = s.pc + 3 := BitVec.add_assoc ..
  cases hentry : opcodeEntry (s.memRead s.pc) with
  | noInstr => simp [decode, State.bytesAtPC, hentry] at hd
  | f0 j =>
    obtain ⟨rfl, -⟩ : j = i ∧ _ := by simpa [decode, State.bytesAtPC, hentry] using hd
    have hlen : j.length = 1 := by rw [← length_encode, encode_f0 hentry]; rfl
    rw [fetch_f0 (hwired.trans hentry), hlen]
    rfl
  | f1 make =>
    obtain ⟨rfl, -⟩ : make (s.memRead (s.pc + 1)) = i ∧ _ := by simpa [decode, State.bytesAtPC, hentry] using hd
    have hlen : (make (s.memRead (s.pc + 1))).length = 2 := by rw [← length_encode, encode_f1 hentry]; rfl
    rw [fetch_f1 (hwired.trans hentry), hlen, add_two]
    rfl
  | f2 make =>
    obtain ⟨rfl, -⟩ : make (wordOf (s.memRead (s.pc + 2)) (s.memRead (s.pc + 1))) = i ∧ _ := by
      simpa [decode, State.bytesAtPC, hentry] using hd
    have hlen : (make (wordOf (s.memRead (s.pc + 2)) (s.memRead (s.pc + 1)))).length = 3 := by
      rw [← length_encode, encode_f2 hentry]; rfl
    rw [fetch_f2 (hwired.trans hentry), add_two, hlen, add_three]
    rfl

/-- Settles O9: the step is the execute phase after the fetch of the decoded instruction. -/
theorem stepRunsDecoded : Obligations.StepRunsDecoded := by
  unfold Obligations.StepRunsDecoded
  intro s i rest hr hd hw
  simp only [step, hr, fetch_of_decode hd hw]

/-! ## A placed word -/

/-- The decoder reads a table word's instruction from the word's three bytes. -/
theorem decode_of_decodeTableWord {nbits w : Nat} {i : Instr} (h : decodeTableWord nbits w = some i) :
    ∃ rest, decode [tableByte nbits w 0, tableByte nbits w 1, tableByte nbits w 2] = .ok (i, rest) := by
  unfold decodeTableWord at h
  split at h
  next j rest hd => exact ⟨rest, by rw [hd, Option.some.inj h]⟩
  next => cases h

/-- Placing a word puts its bytes at PC, in a canonical memory: the three addresses differ, also where they
wrap past 0xFFFF. -/
theorem bytesAtPC_placeWord {s : State} (nbits w : Nat) (h : s.mem.wf = true) :
    (s.placeWord nbits w).bytesAtPC = [tableByte nbits w 0, tableByte nbits w 1, tableByte nbits w 2] := by
  have ne01 : s.pc ≠ s.pc + 1 := by bv_omega
  have ne02 : s.pc ≠ s.pc + 2 := by bv_omega
  have ne12 : s.pc + 1 ≠ s.pc + 2 := by bv_omega
  have wf0 := State.wf_memWrite s s.pc (tableByte nbits w 0) h
  have wf1 := State.wf_memWrite _ (s.pc + 1) (tableByte nbits w 1) wf0
  have read0 : (s.placeWord nbits w).memRead s.pc = tableByte nbits w 0 :=
    (State.memRead_memWrite_other _ _ ne02).trans
      ((State.memRead_memWrite_other _ _ ne01).trans (State.memRead_memWrite_same s s.pc _ h))
  have read1 : (s.placeWord nbits w).memRead (s.pc + 1) = tableByte nbits w 1 :=
    (State.memRead_memWrite_other _ _ ne12).trans (State.memRead_memWrite_same _ _ _ wf0)
  have read2 : (s.placeWord nbits w).memRead (s.pc + 2) = tableByte nbits w 2 :=
    State.memRead_memWrite_same _ _ _ wf1
  have hpc : (s.placeWord nbits w).pc = s.pc := rfl
  rw [State.bytesAtPC, hpc, read0, read1, read2]

/-- Settles O58: the placed bytes are what the next step fetches and decodes. -/
theorem placedWordRuns : Obligations.PlacedWordRuns := by
  unfold Obligations.PlacedWordRuns
  intro s nbits w i hmem hword hw
  obtain ⟨rest, hd⟩ := decode_of_decodeTableWord hword
  rw [← bytesAtPC_placeWord nbits w hmem] at hd
  exact stepRunsDecoded (s.placeWord nbits w) i rest rfl hd hw

end Machine

end Sys2Proof
end

section
/-! Proofs about what an instruction can change: flags (R28, R144), registers (R21 to R24, R119), memory (R60),
the engine state (R32) and the fault record of an operand form without an address (R402). -/

namespace Sys2Proof.Machine

/-! ## Flags -/

/-- The flags a mnemonic writes, besides U (R28, R144). -/
def flagsWritten : Mnemonic → List Flag
  | .lda | .ldx | .ldy | .tax | .tay | .txa | .tya | .tsx | .pla | .inc | .dec | .inx | .iny | .dex | .dey
  | .and | .ora | .eor => [.n, .z]
  | .adc | .sbc => [.c, .z, .v, .n]
  | .cmp | .cpx | .cpy => [.c, .z, .n]
  | .bit => [.z, .n, .v]
  | .asl | .lsr | .rol | .ror => [.c, .n, .z]
  | .plp | .rti => [.c, .z, .i, .d, .v, .n]
  | .clc | .sec => [.c]
  | .cli | .sei => [.i]
  | .cld | .sed => [.d]
  | .clv => [.v]
  | .brk => [.b, .i]
  | .sta | .stx | .sty | .txs | .pha | .php | .bcc | .bcs | .beq | .bmi | .bne | .bpl | .bvc | .bvs | .jmp | .jsr
  | .rts | .nop => []

/-- N and Z follow a value in a state that shares P and the parameters with the one before. -/
theorem flagsKept_updateNZ {s u : State} (v : Byte) (hp : u.p = s.p) (hcfg : u.cfg = s.cfg) :
    ∀ f, f ≠ .u → f ∉ [Flag.n, .z] → (u.updateNZ v).flag f = s.flag f := fun f hu hf =>
  ((flagsKeptBut_updateNZ u v).2 f hu hf).trans (State.flag_congr hp hcfg f)

/-- BRK's two writes change B and I alone (R343). -/
theorem flagsKeptBut_brk (s : State) : FlagsKeptBut [.b, .i] s ((s.setFlag .b).setFlag .i).halt := by
  refine ⟨by simp, fun f hu hf => ?_⟩
  obtain ⟨hb, hi⟩ : f ≠ .b ∧ f ≠ .i := by simpa using hf
  simp [hu, hb, hi]

/-- LoadStatus changes no flag but the six it loads and U (R317). -/
theorem flag_loadStatus_of_not_loaded (s : State) (v : Byte) {f : Flag} (hu : f ≠ .u)
    (hf : f ∉ [Flag.c, .z, .i, .d, .v, .n]) : (s.loadStatus v).flag f = s.flag f := by
  cases f with
  | b => exact flag_b_loadStatus s v
  | u => exact absurd rfl hu
  | c | z | i | d | v | n => simp at hf

/-- RTI takes its P from LoadStatus, and its SP and PC from elsewhere (R342): its flags are LoadStatus's. -/
theorem flag_with_loadStatus_p (s : State) (v sp : Byte) (pc : Word) (f : Flag) :
    ({ s with p := (s.loadStatus v).p, sp := sp, pc := pc } : State).flag f = (s.loadStatus v).flag f := by
  rw [State.flag, State.flag, State.loadStatus_cfg]

/-- No instruction changes a flag other than U that is not one of those it writes. -/
theorem Effect.flag_kept {mn : Mnemonic} {o : Operand} {s t : State} (h : Effect mn o s t) {f : Flag}
    (hu : f ≠ .u) (hf : f ∉ flagsWritten mn) : t.flag f = s.flag f := by
  cases mn with
  | lda | ldx | ldy | inc | dec | pla | and | ora | eor =>
    obtain ⟨m, -, rfl⟩ := h
    exact flagsKept_updateNZ _ rfl rfl f hu hf
  | tax | tay | txa | tya | tsx | inx | iny | dex | dey =>
    subst h
    exact flagsKept_updateNZ _ rfl rfl f hu hf
  | adc | sbc =>
    obtain ⟨m, -, rfl⟩ := h
    exact (flagsKeptBut_addWithCarry s _).2 f hu hf
  | cmp | cpx | cpy =>
    obtain ⟨m, -, rfl⟩ := h
    exact (flagsKeptBut_compare s _ m).2 f hu hf
  | bit =>
    obtain ⟨m, -, rfl⟩ := h
    exact (flagsKeptBut_testBits s m).2 f hu hf
  | asl | lsr | rol | ror =>
    obtain ⟨g, new, -, -, rfl⟩ := h
    exact (flagsKeptBut_writeShifted s g _ new).2 f hu hf
  | plp =>
    subst h
    exact flag_loadStatus_of_not_loaded _ _ hu hf
  | rti =>
    obtain ⟨u, rfl, rfl⟩ := h
    exact (flag_with_loadStatus_p s _ _ _ f).trans (flag_loadStatus_of_not_loaded s _ hu hf)
  | clc | cli | cld | clv =>
    subst h
    exact (flagsKeptBut_writeFlag s _ false).2 f hu hf
  | sec | sei | sed =>
    subst h
    exact (flagsKeptBut_writeFlag s _ true).2 f hu hf
  | brk =>
    subst h
    exact (flagsKeptBut_brk s).2 f hu hf
  | sta | stx | sty | jmp =>
    obtain ⟨ea, -, rfl⟩ := h
    rfl
  | txs | pha | php | bcc | bcs | beq | bmi | bne | bpl | bvc | bvs | jsr | rts | nop =>
    subst h
    rfl

/-- Settles O53: a flag that changes is one the mnemonic writes, and a check of the 56 mnemonics finds those among
the flag's writers. -/
theorem flagWriters : Obligations.FlagWriters := by
  unfold Obligations.FlagWriters
  intro i s t f hexec hu hne
  have hwritten : f ∈ flagsWritten i.mnemonic :=
    not_not.mp fun hf => hne ((effect_of_exec hexec).flag_kept hu hf)
  generalize i.mnemonic = mn at hwritten ⊢
  revert mn
  cases f with
  | u => exact absurd rfl hu
  | c | z | i | d | b | v | n => exact forall_mnemonic (by decide)

/-! ## Registers -/

/-- The writers of A but for the shifts and rotates (R21). -/
def aWriters : List Mnemonic := [.lda, .txa, .tya, .pla, .adc, .sbc, .and, .ora, .eor]

/-- The writers of X (R22). -/
def xWriters : List Mnemonic := [.ldx, .tax, .tsx, .inx, .dex]

/-- The writers of Y (R23). -/
def yWriters : List Mnemonic := [.ldy, .tay, .iny, .dey]

/-- The writers of SP (R24). -/
def spWriters : List Mnemonic := [.txs, .pha, .php, .pla, .plp, .jsr, .rts, .rti]

/-- The writers of PC in the execute phase (R119). -/
def pcWriters : List Mnemonic := [.bcc, .bcs, .beq, .bmi, .bne, .bpl, .bvc, .bvs, .jmp, .jsr, .rts, .rti]

/-- An instruction changes a register only if it is one of the register's writers; a shift or rotate changes A
only in accumulator mode (R186). -/
theorem Effect.registers {mn : Mnemonic} {o : Operand} {s t : State} (h : Effect mn o s t) :
    (mn ∈ aWriters ∨ (o.mode = .acc ∧ mn ∈ [.asl, .lsr, .rol, .ror]) ∨ t.a = s.a) ∧
    (mn ∈ xWriters ∨ t.x = s.x) ∧ (mn ∈ yWriters ∨ t.y = s.y) ∧ (mn ∈ spWriters ∨ t.sp = s.sp) ∧
    (mn ∈ pcWriters ∨ t.pc = s.pc) := by
  simp only [aWriters, xWriters, yWriters, spWriters, pcWriters]
  cases mn with
  | asl | lsr | rol | ror =>
    obtain ⟨g, new, hg, -, rfl⟩ := h
    rcases cases_of_target_eq_some hg with ⟨hacc, rfl⟩ | ⟨-, ea, -, rfl⟩
    · simp [hacc, State.writeTarget]
    · simp [State.writeTarget]
  | lda | ldx | ldy | sta | stx | sty | inc | dec | jmp | adc | sbc | cmp | cpx | cpy | and | ora | eor | bit
  | pla | rti =>
    obtain ⟨m, -, rfl⟩ := h
    simp [loadA, loadX, loadY]
  | tax | tay | txa | tya | tsx | txs | inx | iny | dex | dey | pha | php | plp | bcc | bcs | beq | bmi | bne | bpl
  | bvc | bvs | jsr | rts | brk | nop | clc | sec | cli | sei | cld | sed | clv =>
    subst h
    simp [loadA, loadX, loadY]

/-- An instruction that R119 does not name keeps PC. -/
theorem Effect.pc_kept {mn : Mnemonic} {o : Operand} {s t : State} (h : Effect mn o s t) (hmn : mn ∉ pcWriters) :
    t.pc = s.pc := by
  obtain ⟨-, -, -, -, hpc⟩ := h.registers
  exact hpc.resolve_left hmn

/-- Settles O55: each register's part of `Effect.registers`. -/
theorem registerWriters : Obligations.RegisterWriters := by
  unfold Obligations.RegisterWriters
  intro i s t hexec
  obtain ⟨ha, hx, hy, hsp, hpc⟩ := (effect_of_exec hexec).registers
  exact ⟨fun hne => (or_assoc.mpr ha).resolve_right hne, hx.resolve_right, hy.resolve_right, hsp.resolve_right,
    hpc.resolve_right⟩

/-! ## Memory -/

/-- Two pushes change no byte but the two at the stack addresses of SP and SP - 1 (R311). -/
theorem memoryKeptBut_push_push (s : State) (v w : Byte) :
    MemoryKeptBut [stackAddr s.sp, stackAddr (s.sp - 1)] s ((s.push v).push w) := by
  intro ad had
  obtain ⟨hfirst, hsecond⟩ : ad ≠ stackAddr s.sp ∧ ad ≠ stackAddr (s.sp - 1) := by simpa using had
  exact (State.memRead_push_other (s.push v) w hsecond).trans (State.memRead_push_other s v hfirst)

/-- A write of memory changes the byte at its address alone (R61). -/
theorem eq_of_memRead_memWrite_ne {s : State} {ea ad : Word} {v : Byte}
    (h : (s.memWrite ea v).memRead ad ≠ s.memRead ad) : ad = ea :=
  not_not.mp fun hne => h (State.memRead_memWrite_other s v hne)

/-- A byte that an instruction changes is at its effective address or at the stack address of SP, for JSR also of
SP - 1. -/
theorem Effect.memory_writers {mn : Mnemonic} {o : Operand} {s t : State} (h : Effect mn o s t) {ad : Word}
    (hne : t.memRead ad ≠ s.memRead ad) :
    mn ∈ [.sta, .stx, .sty, .inc, .dec, .asl, .lsr, .rol, .ror] ∧ s.resolve o = some ad ∨
    mn ∈ [.pha, .php, .jsr] ∧ ad = stackAddr s.sp ∨ mn = .jsr ∧ ad = stackAddr (s.sp - 1) := by
  cases mn with
  | sta | stx | sty =>
    obtain ⟨ea, hea, rfl⟩ := h
    exact .inl ⟨by decide, eq_of_memRead_memWrite_ne hne ▸ hea⟩
  | inc | dec =>
    obtain ⟨ea, hea, rfl⟩ := h
    rw [State.memRead_updateNZ] at hne
    exact .inl ⟨by decide, eq_of_memRead_memWrite_ne hne ▸ hea⟩
  | asl | lsr | rol | ror =>
    obtain ⟨g, new, hg, -, rfl⟩ := h
    rw [State.memRead_updateNZ] at hne
    rcases cases_of_target_eq_some hg with ⟨-, rfl⟩ | ⟨-, ea, hea, rfl⟩
    · exact absurd (State.memRead_writeFlag s .c _ ad) hne
    · rw [← State.memRead_writeFlag s .c _ ad] at hne
      exact .inl ⟨by decide, eq_of_memRead_memWrite_ne hne ▸ hea⟩
  | pha | php =>
    subst h
    exact .inr (.inl ⟨by decide, eq_of_memRead_memWrite_ne hne⟩)
  | jsr =>
    subst h
    have hmem : ad ∈ [stackAddr s.sp, stackAddr (s.sp - 1)] :=
      not_not.mp fun hout => hne (memoryKeptBut_push_push s _ _ ad hout)
    rcases List.mem_pair.mp hmem with hfirst | hsecond
    · exact .inr (.inl ⟨by decide, hfirst⟩)
    · exact .inr (.inr ⟨rfl, hsecond⟩)
  | lda | ldx | ldy | jmp | adc | sbc | cmp | cpx | cpy | and | ora | eor | bit | pla | rti =>
    obtain ⟨m, -, rfl⟩ := h
    exact absurd (memoryKept_of_mem_eq (by simp [loadA, loadX, loadY]) ad) hne
  | tax | tay | txa | tya | tsx | txs | inx | iny | dex | dey | plp | bcc | bcs | beq | bmi | bne | bpl | bvc | bvs
  | rts | brk | nop | clc | sec | cli | sei | cld | sed | clv =>
    subst h
    exact absurd (memoryKept_of_mem_eq (by simp [loadX, loadY, loadA]) ad) hne

/-- Settles O56, by the effect of the instruction's mnemonic. -/
theorem memoryWriters : Obligations.MemoryWriters := by
  unfold Obligations.MemoryWriters
  exact fun i s t ad hexec hne => (effect_of_exec hexec).memory_writers hne

/-! ## The engine state -/

/-- BRK is the one instruction of its mnemonic, and 0x00 its opcode: a check of the 256 bytes. -/
theorem mnemonicAt_eq_brk_iff (opc : Byte) : mnemonicAt opc = some .brk ↔ opc = 0x00#8 := by
  revert opc
  decide +kernel

theorem mnemonic_eq_brk_iff_opcode (i : Instr) : i.mnemonic = .brk ↔ i.opcode = 0x00#8 := by
  simpa using mnemonicAt_eq_brk_iff i.opcode

theorem mnemonic_eq_brk_iff (i : Instr) : i.mnemonic = .brk ↔ i = .brk := by
  cases i <;> simp [Instr.mnemonic, Instr.encoding]

/-- Settles O14: every instruction completes with its effect, which keeps the parameters and, but for BRK, the
engine state. -/
theorem execAlwaysCompletes : Obligations.ExecAlwaysCompletes := by
  unfold Obligations.ExecAlwaysCompletes
  intro i s
  obtain ⟨t, ht, hE⟩ := exec_effect i s
  obtain ⟨hcfg, hengine⟩ := hE.cfg_engine
  simp only [mnemonic_eq_brk_iff] at hengine
  exact ⟨t, ht, hcfg, hengine⟩

/-! ## The addressing error -/

/-- The state that a form without its operand is left in (R402): the recorded address is PC less the length. -/
theorem raiseAddressingError_eq {s : State} {o : Operand} {opAddr : Word} (opc : Byte)
    (hpc : s.pc = opAddr + BitVec.ofNat 16 (1 + o.mode.operandBytes)) :
    s.raiseAddressingError opc o = { s with engine := .faulted .addressingError opc opAddr } := by
  have hopAddr : s.pc - BitVec.ofNat 16 (1 + o.mode.operandBytes) = opAddr := by rw [hpc, BitVec.add_sub_cancel]
  rw [State.raiseAddressingError, hopAddr, State.raiseFault]

/-- Settles O21: each combinator raises the error exactly in the modes without its operand; and no instruction
leaves a fault that was not there, since it keeps the engine state or halts. -/
theorem addressingErrorEntry : Obligations.AddressingErrorEntry := by
  unfold Obligations.AddressingErrorEntry
  refine ⟨fun opc o s t opAddr hpc ht => ?entry, fun i s t opc ad hexec hfault => ?unreached⟩
  case entry =>
    rw [ht, ← raiseAddressingError_eq opc hpc]
    exact ⟨fun hmode => withOperand_none ((readOperand_eq_none_iff s o).mpr hmode) opc,
      fun hmode => withAddress_none ((resolve_eq_none_iff s o).mpr hmode) opc,
      fun hmode => withTarget_none ((target_eq_none_iff s o).mpr hmode) opc⟩
  case unreached =>
    obtain ⟨-, hengine⟩ := (effect_of_exec hexec).cfg_engine
    rw [hfault] at hengine
    split at hengine
    · cases hengine
    · exact hengine.symm

end Sys2Proof.Machine
end

section
/-! Proofs about one step and the run loop (40_engine.md, 60_exceptions.md), and the invariant of the machine: reset
establishes it and every step keeps it. -/

namespace Sys2Proof.Machine

/-! ## One step -/

/-- Settles O11: step looks at the engine state first. -/
theorem stoppedEngineIsInert : Obligations.StoppedEngineIsInert := by
  unfold Obligations.StoppedEngineIsInert
  intro s hfinal
  cases he : s.engine with
  | running => exact absurd he hfinal
  | halted | faulted cause opc ad => simp only [step, he]

/-- A step at a wired-in opcode halts the engine at 0x00, which is BRK, and leaves it Running at any other. -/
theorem step_wired {s : State} (hr : s.engine = .running) (hw : isWired s.cfg (s.memRead s.pc) = true) :
    ∃ t, step s = .next t ∧ t.engine = if s.memRead s.pc = 0x00 then .halted else .running := by
  rcases step_running hr with ⟨hunwired, -⟩ | ⟨-, i, pc, t, hopc, hstep, hE, -⟩
  · exact absurd (hunwired.symm.trans hw) Bool.false_ne_true
  · obtain ⟨-, hengine⟩ := hE.cfg_engine
    simp only [mnemonic_eq_brk_iff_opcode, hopc, hr] at hengine
    exact ⟨t, hstep, hengine⟩

/-- Settles O12: at an opcode that is not wired in the step raises the fault, and at any other it leaves the engine
Running or Halted. -/
theorem stepFaultsExactly : Obligations.StepFaultsExactly := by
  unfold Obligations.StepFaultsExactly
  intro s hr
  cases hw : isWired s.cfg (s.memRead s.pc) with
  | false =>
    refine ⟨_, step_unwired hr hw, fun cause opc ad => ?_⟩
    simp [eq_comm]
  | true =>
    obtain ⟨t, hstep, hengine⟩ := step_wired hr hw
    refine ⟨t, hstep, fun cause opc ad => ?_⟩
    rw [hengine]
    split <;> simp

/-- Settles O13: a step at an opcode that is not wired in faults, and one at any other halts exactly at 0x00. -/
theorem onlyBrkHalts : Obligations.OnlyBrkHalts := by
  unfold Obligations.OnlyBrkHalts
  intro s t hr hstep
  cases hw : isWired s.cfg (s.memRead s.pc) with
  | false =>
    have hunwired : ¬(s.memRead s.pc = 0x00 ∧ isWired s.cfg 0x00 = true) := by
      rintro ⟨hopc, hzero⟩
      rw [hopc, hzero] at hw
      cases hw
    cases hstep.symm.trans (step_unwired hr hw)
    exact iff_of_false (by simp) hunwired
  | true =>
    obtain ⟨u, hu, hengine⟩ := step_wired hr hw
    cases hstep.symm.trans hu
    have hzero : s.memRead s.pc = 0x00 → isWired s.cfg 0x00 = true := fun hopc => hopc ▸ hw
    rw [hengine, and_iff_left_of_imp hzero]
    split
    next hopc => exact iff_of_true rfl hopc
    next hopc => exact iff_of_false nofun hopc

theorem length_mem (i : Instr) : i.length ∈ [1, 2, 3] := by
  unfold Instr.length
  cases i.mode <;> decide

/-- Settles O15: the fetch moves PC past the instruction, and the execute phase of an instruction that R119 does not
name keeps it. -/
theorem pcAfterStep : Obligations.PcAfterStep := by
  unfold Obligations.PcAfterStep
  intro s i rest hr hd hw hmn
  obtain ⟨t, ht, hE⟩ := exec_effect i { s with pc := s.pc + BitVec.ofNat 16 i.length }
  have hpc : t.pc = s.pc + BitVec.ofNat 16 i.length := hE.pc_kept hmn
  refine ⟨t, (stepRunsDecoded s i rest hr hd hw).trans ht, ?_, length_mem i, fun hi => hi ▸ rfl⟩
  rw [hpc, BitVec.toNat_add, BitVec.toNat_ofNat, Nat.add_mod_mod]

/-! ## The run loop -/

/-- The loop ends at once in a stopped state, whatever the fuel (R117). -/
theorem runLoop_of_final {s : State} (h : Final s) (n : Nat) : runLoop n s = some s := by
  cases n <;> exact if_neg h

/-- The host's own stepping stays in a stopped state (R116). -/
theorem core_run_of_final {s : State} (h : Final s) (n : Nat) : Sys2Proof.core.run n s = .next s := by
  induction n with
  | zero => rfl
  | succ n ih => rw [core_run_succ n (stoppedEngineIsInert s h), ih]

/-- While the engine is Running the loop spends one fuel on each step (R117). -/
theorem runLoop_succ_of_running {s t : State} (hr : s.engine = .running) (hstep : step s = .next t) (n : Nat) :
    runLoop (n + 1) s = runLoop n t := by
  simp only [runLoop, hr, if_pos, hstep]

/-- Settles O57, by induction on the fuel: a stopped state is answered at once, and a Running one steps (O12). -/
theorem runEndsFinally : Obligations.RunEndsFinally := by
  unfold Obligations.RunEndsFinally
  intro n k
  induction n with
  | zero =>
    intro s t hrun
    obtain ⟨hfinal, rfl⟩ : Final s ∧ s = t := by simpa [runLoop, Final] using hrun
    exact ⟨hfinal, runLoop_of_final hfinal _, core_run_of_final hfinal _⟩
  | succ n ih =>
    intro s t hrun
    by_cases hr : s.engine = .running
    · obtain ⟨u, hu, -⟩ := stepFaultsExactly s hr
      rw [runLoop_succ_of_running hr hu] at hrun
      rw [Nat.add_right_comm, runLoop_succ_of_running hr hu, core_run_succ _ hu]
      exact ih u t hrun
    · have hfinal : Final s := hr
      obtain rfl : s = t := by simpa [runLoop_of_final hfinal] using hrun
      exact ⟨hfinal, runLoop_of_final hfinal _, core_run_of_final hfinal _⟩

/-! ## The invariant -/

@[simp] theorem loadImage_cfg (cells : List Host.Cell) (s : State) : (s.loadImage cells).cfg = s.cfg := by
  induction cells generalizing s with
  | nil => rfl
  | cons c cells ih => exact ih _

/-- Reset establishes the invariant over canonical memory and allowed parameters, in any engine state (R34,
R440). -/
theorem inv_hostReset {s : State} (hmem : s.mem.wf = true) (hcfg : s.cfg.wf = true) : Inv s.hostReset where
  memory := by rw [hostReset_eq]; exact hmem
  parameters := by rw [hostReset_eq]; exact hcfg
  unused := by simp [flag_hostReset]
  running _ := by simp [flag_hostReset]
  halted h := by rw [hostReset_eq] at h; cases h
  faulted cause opc ad h := by rw [hostReset_eq] at h; cases h

/-- Settles O5: loading keeps the canonical form and the parameters, and reset does the rest. -/
theorem bootEstablishesInv : Obligations.BootEstablishesInv := by
  unfold Obligations.BootEstablishesInv
  intro cells s hmem hcfg
  exact inv_hostReset (State.wf_loadImage cells s hmem) ((loadImage_cfg cells s).symm ▸ hcfg)

/-- Settles O2: with nothing listed, both bytes of the vector read 0x00. -/
theorem resetIsHostReset : Obligations.ResetIsHostReset := by
  unfold Obligations.ResetIsHostReset
  intro s hmem hcfg
  have unlisted : ∀ ad, s.memRead ad = 0x00 := fun ad => by rw [State.memRead, hmem]; rfl
  rw [hostReset_eq, unlisted, unlisted, hmem, hcfg]
  rfl

/-- Settles O3: State.reset is what reset makes of itself, and reset establishes the invariant. -/
theorem invAtReset : Obligations.InvAtReset := by
  unfold Obligations.InvAtReset
  have standard_wf : Config.standard.wf = true := by decide +kernel
  rw [← resetIsHostReset State.reset rfl rfl]
  exact inv_hostReset State.wf_reset standard_wf

/-- The fault of an opcode that is not wired in keeps the invariant: its record is true (R401, R404). -/
theorem Inv.unwired {s : State} (h : Inv s) (hw : isWired s.cfg (s.memRead s.pc) = false) :
    Inv { s with pc := s.pc + 1, engine := .faulted .unimplementedOpcode (s.memRead s.pc) s.pc } where
  memory := h.memory
  parameters := h.parameters
  unused := h.unused
  running he := by cases he
  halted he := by cases he
  faulted cause opc ad he := by
    cases he
    exact ⟨rfl, hw, rfl, rfl⟩

/-- B is written by BRK alone (R28): a check of the 56 mnemonics. -/
theorem b_mem_flagsWritten_iff (mn : Mnemonic) : Flag.b ∈ flagsWritten mn ↔ mn = .brk := by
  revert mn
  exact forall_mnemonic (by decide)

/-- BRK sets B and I (R343). -/
theorem Effect.flags_of_brk {o : Operand} {s t : State} (h : Effect .brk o s t) :
    t.flag .b = true ∧ t.flag .i = true := by
  subst h
  simp

/-- Every instruction of a Running engine keeps the invariant: BRK halts with B and I set, any other keeps B and
leaves the engine Running. -/
theorem Effect.inv {mn : Mnemonic} {o : Operand} {s t : State} (h : Effect mn o s t) (hr : s.engine = .running)
    (hs : Inv s) : Inv t := by
  obtain ⟨hcfg, hengine⟩ := h.cfg_engine
  have memory : t.mem.wf = true := h.memory_wf hs.memory
  have parameters : t.cfg.wf = true := hcfg ▸ hs.parameters
  have unused : t.flag .u = true :=
    h.p_eq_or_flag_u.elim (fun hp => (State.flag_congr hp hcfg .u).trans hs.unused) id
  by_cases hmn : mn = .brk
  · subst hmn
    have halted : t.engine = .halted := hengine
    exact { memory, parameters, unused
            running := fun he => by simp [halted] at he
            halted := fun _ => h.flags_of_brk
            faulted := fun _ _ _ he => by simp [halted] at he }
  · have running : t.engine = .running := by rw [hengine, if_neg hmn, hr]
    have bKept : t.flag .b = s.flag .b := h.flag_kept (by decide) (mt (b_mem_flagsWritten_iff mn).mp hmn)
    exact { memory, parameters, unused
            running := fun _ => bKept.trans (hs.running hr)
            halted := fun he => by simp [running] at he
            faulted := fun _ _ _ he => by simp [running] at he }

/-- The invariant says nothing of PC while the engine is Running. -/
theorem Inv.with_pc {s : State} (h : Inv s) (hr : s.engine = .running) (pc : Word) : Inv { s with pc := pc } where
  memory := h.memory
  parameters := h.parameters
  unused := h.unused
  running := h.running
  halted := h.halted
  faulted cause opc ad he := by
    have faulted : s.engine = .faulted cause opc ad := he
    rw [hr] at faulted
    cases faulted

/-- Settles O4: a stopped engine keeps its state, and a Running one faults or has the effect of an instruction. -/
theorem stepKeepsInv : Obligations.StepKeepsInv := by
  unfold Obligations.StepKeepsInv
  intro s t hs hstep
  by_cases hr : s.engine = .running
  · rcases step_running hr with ⟨hw, -⟩ | ⟨-, i, pc, u, -, hu, hE, -⟩
    · cases hstep.symm.trans (step_unwired hr hw)
      exact hs.unwired hw
    · cases hstep.symm.trans hu
      exact hE.inv hr (hs.with_pc hr pc)
  · cases hstep.symm.trans (stoppedEngineIsInert s hr)
    exact hs

end Sys2Proof.Machine
end

section
/-! Proofs of the family 49_control.md: the branches (R331 to R338), JMP, JSR, RTS, RTI (R339 to R342), BRK and NOP
(R343, R344), and a call with its return. -/

namespace Sys2Proof.Machine

/-! ## Branches -/

/-- The branches, each with its opcode, the flag it tests and the value it branches at (R331 to R338). -/
def branchRows (d : Byte) : List (Instr × Byte × Flag × Bool) :=
  [(.bcc d, 0x90, .c, false), (.bcs d, 0xB0, .c, true), (.beq d, 0xF0, .z, true), (.bmi d, 0x30, .n, true),
    (.bne d, 0xD0, .z, false), (.bpl d, 0x10, .n, false), (.bvc d, 0x50, .v, false), (.bvs d, 0x70, .v, true)]

/-- An instruction whose effect determines the next state completes with that state. -/
theorem exec_eq_of_effect {i : Instr} {s u : State} (h : ∀ t, Effect i.mnemonic i.operand s t → t = u) :
    exec i s = .next u := by
  obtain ⟨t, ht, hE⟩ := exec_effect i s
  rw [ht, h t hE]

/-- Each branch is the two bytes of its row, and goes to the relative target exactly when the row's flag has the
row's value (R330). -/
theorem branch_of_mem_branchRows {d : Byte} {i : Instr} {opc : Byte} {f : Flag} {c : Bool}
    (h : (i, opc, f, c) ∈ branchRows d) (s : State) :
    encode i = [opc, d] ∧
      exec i s = .next { s with pc := if s.flag f = c then s.pc + sext16 d else s.pc } := by
  simp only [branchRows, List.mem_cons, List.not_mem_nil, or_false, Prod.mk.injEq] at h
  rcases h with ⟨rfl, rfl, rfl, rfl⟩ | ⟨rfl, rfl, rfl, rfl⟩ | ⟨rfl, rfl, rfl, rfl⟩ | ⟨rfl, rfl, rfl, rfl⟩ |
    ⟨rfl, rfl, rfl, rfl⟩ | ⟨rfl, rfl, rfl, rfl⟩ | ⟨rfl, rfl, rfl, rfl⟩ | ⟨rfl, rfl, rfl, rfl⟩ <;>
    exact ⟨rfl, exec_eq_of_effect fun _ hE => hE⟩

/-- Settles O43: each branch by its row. -/
theorem branches : Obligations.Branches := by
  unfold Obligations.Branches
  intro d s i opc f c h
  obtain ⟨hencode, hexec⟩ := branch_of_mem_branchRows (d := d) h s
  rw [word_add_sext16] at hexec
  exact ⟨hencode, _, hexec, memoryKept_of_mem_eq rfl, rfl⟩

/-! ## JMP -/

/-- An instruction with a 16-bit operand is its opcode, then the operand's low byte and high byte (R82). -/
theorem encode_append {opc : Byte} {make : Word → Instr} (h : opcodeEntry opc = .f2 make) (hi lo : Byte) :
    encode (make (hi ++ lo)) = [opc, lo, hi] :=
  calc encode (make (hi ++ lo))
      = [opc, loByte (wordOf hi lo), hiByte (wordOf hi lo)] := encode_f2 h (wordOf hi lo)
    _ = [opc, lo, hi] := by rw [loByte_wordOf, hiByte_wordOf]

/-- Settles O44: PC takes the address that Resolve gives, the operand itself or the pointer's word. -/
theorem jumps : Obligations.Jumps := by
  unfold Obligations.Jumps
  intro lo hi ad s had
  have indirect : exec (.jmpInd ad) s = .next { s with pc := s.memRead16 ad } := rfl
  rw [memRead16_eq] at indirect
  exact ⟨had ▸ encode_append rfl hi lo, had ▸ encode_append rfl hi lo, rfl, indirect⟩

/-! ## JSR -/

/-- The two pushes of JSR: the high byte of PC - 1, then the low byte (R340). -/
def State.pushReturn (s : State) : State := (s.push (hiByte (s.pc - 1))).push (loByte (s.pc - 1))

theorem exec_jsr (ad : Word) (s : State) : exec (.jsr ad) s = .next { s.pushReturn with pc := ad } :=
  exec_eq_of_effect fun _ hE => hE

theorem byte_sub_one_one (v : Byte) : v - 1 - 1 = v - 2 := by bv_omega

theorem pushReturn_sp (s : State) : s.pushReturn.sp = s.sp - 2 := byte_sub_one_one s.sp

theorem pushReturn_eq (s : State) : s.pushReturn = { s with sp := s.sp - 2, mem := s.pushReturn.mem } := by
  rw [← pushReturn_sp]
  rfl

/-- The second push leaves the first one's byte: its address is another one, also where SP wraps. -/
theorem memRead_pushReturn_high {s : State} (h : s.mem.wf = true) :
    s.pushReturn.memRead (stackAddr s.sp) = hiByte (s.pc - 1) := by
  have apart : stackAddr s.sp ≠ stackAddr (s.sp - 1) := mt stackAddr_inj.mp (by bv_omega)
  exact (State.memRead_push_other (s.push _) _ apart).trans (State.memRead_push_same s _ h)

theorem memRead_pushReturn_low {s : State} (h : s.mem.wf = true) :
    s.pushReturn.memRead (stackAddr (s.sp - 1)) = loByte (s.pc - 1) :=
  State.memRead_push_same (s.push _) _ (State.wf_push s _ h)

/-- Settles O45: JSR is `pushReturn`, then the operand into PC. -/
theorem jsrResult : Obligations.JsrResult := by
  unfold Obligations.JsrResult
  intro lo hi ad s had
  refine ⟨had ▸ encode_append rfl hi lo, { s.pushReturn with pc := ad }, exec_jsr ad s, ?frame,
    fun hmem => ⟨?high, ?low⟩, memoryKeptBut_push_push s _ _⟩
  case frame => rw [pushReturn_eq]
  case high => exact (congrArg BitVec.toNat (memRead_pushReturn_high hmem)).trans (toNat_hiByte _)
  case low => exact (congrArg BitVec.toNat (memRead_pushReturn_low hmem)).trans (toNat_loByte _)

/-! ## RTS and RTI -/

theorem exec_rts (s : State) : exec .rts s = .next { s with
    sp := s.sp + 2, pc := wordOf (s.memRead (stackAddr (s.sp + 2))) (s.memRead (stackAddr (s.sp + 1))) + 1 } :=
  exec_eq_of_effect fun _ hE => hE

/-- Settles O46: PC is one past the word pulled, as a number modulo 65536. -/
theorem rtsResult : Obligations.RtsResult := by
  unfold Obligations.RtsResult
  refine ⟨rfl, fun s lo hi hlo hhi => ⟨_, exec_rts s, memoryKept_of_mem_eq rfl, ?_⟩⟩
  rw [← hlo, ← hhi, word_add_eq_ofNat, toNat_wordOf]
  rfl

theorem exec_rti (s : State) : exec .rti s = .next { s with
    p := (s.loadStatus (s.memRead (stackAddr (s.sp + 1)))).p, sp := s.sp + 3
    pc := wordOf (s.memRead (stackAddr (s.sp + 3))) (s.memRead (stackAddr (s.sp + 2))) } :=
  exec_eq_of_effect fun _ ⟨_, hu, ht⟩ => hu ▸ ht

/-- Settles O47: P is LoadStatus's of the first byte pulled, PC the word of the next two. -/
theorem rtiResult : Obligations.RtiResult := by
  unfold Obligations.RtiResult
  refine ⟨rfl, fun s v lo hi hv hlo hhi => ?_⟩
  have hexec := exec_rti s
  rw [← hv, ← hlo, ← hhi] at hexec
  refine ⟨_, hexec, rfl, fun f hf => ?loaded, ?b, ?u, memoryKept_of_mem_eq rfl⟩ <;> rw [flag_with_loadStatus_p]
  case loaded => exact flag_loadStatus_of_loaded s v hf
  case b => exact flag_b_loadStatus s v
  case u => exact flag_u_loadStatus s v

/-! ## BRK and NOP -/

/-- Settles O48: BRK is two flag writes, then the halt. -/
theorem brkHalts : Obligations.BrkHalts := by
  unfold Obligations.BrkHalts
  exact ⟨rfl, fun s => ⟨((s.setFlag .b).setFlag .i).halt, rfl, rfl, by simp, by simp, flagsKeptBut_brk s,
    memoryKept_of_mem_eq rfl⟩⟩

/-- Settles O49: the meaning of NOP answers the state as it is. -/
theorem nopDoesNothing : Obligations.NopDoesNothing := by
  unfold Obligations.NopDoesNothing
  exact ⟨rfl, fun _ => rfl⟩

/-! ## A call and its return -/

/-- Settles O50: RTS pulls from the addresses JSR pushed at, so the word it pulls is PC - 1. -/
theorem callReturn : Obligations.CallReturn := by
  unfold Obligations.CallReturn
  intro ad s t u hmem hjsr hsp hhigh hlow
  cases hjsr.symm.trans (exec_jsr ad s)
  have hsp' : u.sp = s.sp - 2 := hsp.trans (pushReturn_sp s)
  have high : u.memRead (stackAddr s.sp) = hiByte (s.pc - 1) := hhigh.trans (memRead_pushReturn_high hmem)
  have low : u.memRead (stackAddr (s.sp - 1)) = loByte (s.pc - 1) := hlow.trans (memRead_pushReturn_low hmem)
  have spOne : u.sp + 1 = s.sp - 1 := by rw [hsp']; bv_omega
  have spTwo : u.sp + 2 = s.sp := by rw [hsp']; bv_omega
  rw [exec_rts, spOne, spTwo, high, low, wordOf_hiByte_loByte, BitVec.sub_add_cancel]

end Sys2Proof.Machine
end

section
/-! Proofs about the Flag Unit and the places of the flags (10_state.md, 41_flag_unit.md), and about the memory port
and its canonical form (20_memory.md). -/

namespace Sys2Proof.Machine

/-! ## The Flag Unit -/

/-- Bit 7 says that the byte is at least 128 (R141). -/
theorem negativeBit_eq (v : Byte) : negativeBit v = decide (v.toNat ≥ 128) :=
  BitVec.msb_eq_decide v

theorem eq_zero_iff_toNat (v : Byte) : v = 0x00#8 ↔ v.toNat = 0 :=
  ⟨fun h => h ▸ rfl, fun h => BitVec.eq_of_toNat_eq h⟩

/-- A flag write by a decidable condition, as a choice of set or clear (R140). -/
theorem writeFlag_decide (s : State) (f : Flag) (P : Prop) [Decidable P] :
    s.writeFlag f (decide P) = if P then s.setFlag f else s.clearFlag f := by
  by_cases h : P <;> simp [State.writeFlag, h]

/-- Settles O16: each operation is a set or a clear of its flag, chosen by its bit. -/
theorem flagUnit : Obligations.FlagUnit := by
  unfold Obligations.FlagUnit
  refine fun s f g v a b r => ⟨?set, ?clear, rfl, rfl, ?negative, negativeBit_eq v, ?zero, ?overflow⟩
  case set =>
    rw [flag_setFlag, Bool.or_assoc, Bool.or_comm, Bool.decide_or]
  case clear =>
    rw [flag_clearFlag, Bool.or_comm, Bool.and_comm, decide_not]
  case negative =>
    rw [State.updateNegative, negativeBit_eq, writeFlag_decide]
  case zero =>
    rw [State.updateZero, beq_eq_decide, decide_eq_decide.mpr (eq_zero_iff_toNat v), writeFlag_decide]
  case overflow =>
    rw [State.updateOverflow, overflowBit_eq_decide, writeFlag_decide]
    rfl

theorem flag_v_updateOverflow (s : State) (a b r : Byte) : (s.updateOverflow a b r).flag .v = overflowBit a b r :=
  flag_writeFlag_same s _ (by decide)

/-- The overflow rule by the signs of the three numbers (R143). -/
theorem overflowBit_iff_signs (a b r : Byte) :
    overflowBit a b r = true ↔ (a.toInt < 0 ↔ b.toInt < 0) ∧ ¬(r.toInt < 0 ↔ a.toInt < 0) := by
  have sign : ∀ v : Byte, v.toInt < 0 ↔ v.msb = true := fun v => by rw [BitVec.msb_eq_toInt, decide_eq_true_iff]
  rw [overflowBit_eq, sign, sign, sign]
  cases a.msb <;> cases b.msb <;> cases r.msb <;> decide

/-- Settles O17: V is the overflow rule, as two bits tested and by signs. -/
theorem overflowRule : Obligations.OverflowRule := by
  unfold Obligations.OverflowRule
  intro s a b r
  rw [flag_v_updateOverflow]
  exact ⟨overflowBit_eq_decide a b r, overflowBit_iff_signs a b r⟩

/-- The place of a flag in each layout, from its place in R28's list. -/
theorem flagBit_of_getElem? {k : Nat} {f : Flag} (h : [Flag.c, .z, .i, .d, .b, .u, .v, .n][k]? = some f) :
    flagBit .ascending f = k ∧ flagBit .literal f = 7 - k := by
  have checked : ∀ j : Fin 8, ∀ g ∈ [Flag.c, .z, .i, .d, .b, .u, .v, .n][j.val]?,
      flagBit .ascending g = j ∧ flagBit .literal g = 7 - j := by decide
  obtain ⟨hk, -⟩ := List.getElem?_eq_some_iff.mp h
  exact checked ⟨k, hk⟩ f h

/-- Settles O18: a flag is the bit of P at its place in the state's layout. -/
theorem flagPlaces : Obligations.FlagPlaces := by
  unfold Obligations.FlagPlaces
  intro s k f h
  obtain ⟨hascending, hliteral⟩ := flagBit_of_getElem? h
  refine ⟨fun hl => ?_, fun hl => ?_⟩ <;> rw [flag_eq_getLsbD, hl]
  · rw [hascending]
  · rw [hliteral]

/-! ## The memory port -/

/-- Settles O22: both reads join the bytes at two addresses, the second one modulo 65536 or modulo 256. -/
theorem littleEndianReads : Obligations.LittleEndianReads := by
  unfold Obligations.LittleEndianReads
  refine fun s w z => ⟨?word, ?zeroPage, rfl⟩
  case word => rw [memRead16_eq]; exact toNat_wordOf _ _
  case zeroPage => rw [memReadZP16_eq, toNat_wordOf]

/-- Settles O23: a write of memory is a store at its address, and keeps the canonical form. -/
theorem memoryPort : Obligations.MemoryPort := by
  unfold Obligations.MemoryPort
  intro s ea v hmem
  obtain ⟨hfields, hread, hkept⟩ := storedAt_memWrite s ea v
  exact ⟨hread hmem, hkept, hfields, State.wf_memWrite s ea v hmem⟩

/-! ## The canonical form -/

/-- The parts of the canonical form of a list with a first cell. -/
theorem wfFrom_cons_iff {lo k : Nat} {v : Byte} {m : Memory} :
    Memory.wfFrom lo ((k, v) :: m) = true ↔
      lo ≤ k ∧ k < 65536 ∧ v ≠ Memory.unlisted ∧ Memory.wfFrom (k + 1) m = true := by
  simp only [Memory.wfFrom, Bool.and_eq_true, decide_eq_true_eq, and_assoc]

theorem read_cons_self (k : Nat) (v : Byte) (m : Memory) : Memory.read ((k, v) :: m) k = v :=
  if_pos rfl

theorem read_cons_of_ne {k a : Nat} (v : Byte) (m : Memory) (h : k ≠ a) :
    Memory.read ((k, v) :: m) a = m.read a :=
  if_neg h

/-- A canonical list whose keys begin above an address cannot read there as one that begins at the address: the
first reads `unlisted`, the second a byte that is not. -/
theorem read_ne_of_first_key_lt {k : Nat} {v : Byte} {m m' : Memory} {lo : Nat}
    (h : Memory.wfFrom lo ((k, v) :: m) = true) (h' : Memory.wfFrom (k + 1) m' = true) :
    Memory.read ((k, v) :: m) k ≠ m'.read k := by
  obtain ⟨-, -, hv, -⟩ := wfFrom_cons_iff.mp h
  rw [read_cons_self, Memory.read_below h' (Nat.lt_succ_self k)]
  exact hv

/-- Two lists canonical from one bound on that read alike at every address are equal: by induction on the first,
their first keys cannot differ, so the first cells are the same and the rests read alike. -/
theorem eq_of_read_eq {lo : Nat} {m m' : Memory} (h : Memory.wfFrom lo m = true) (h' : Memory.wfFrom lo m' = true)
    (hread : ∀ a < 65536, m.read a = m'.read a) : m = m' := by
  induction m generalizing lo m' with
  | nil =>
    cases m' with
    | nil => rfl
    | cons c m' =>
      obtain ⟨k, v⟩ := c
      obtain ⟨-, hk, -, -⟩ := wfFrom_cons_iff.mp h'
      exact absurd (hread k hk).symm (read_ne_of_first_key_lt h' rfl)
  | cons c m ih =>
    obtain ⟨k, v⟩ := c
    obtain ⟨hlo, hk, hv, hm⟩ := wfFrom_cons_iff.mp h
    cases m' with
    | nil => exact absurd (hread k hk) (read_ne_of_first_key_lt h rfl)
    | cons c' m' =>
      obtain ⟨k', v'⟩ := c'
      obtain ⟨hlo', hk', hv', hm'⟩ := wfFrom_cons_iff.mp h'
      rcases Nat.lt_trichotomy k k' with hlt | rfl | hlt
      · have above : Memory.wfFrom (k + 1) ((k', v') :: m') = true := wfFrom_cons_iff.mpr ⟨hlt, hk', hv', hm'⟩
        exact absurd (hread k hk) (read_ne_of_first_key_lt h above)
      · have sameByte : v = v' := by simpa [read_cons_self] using hread k hk
        have sameRest : m = m' := by
          refine ih hm hm' fun a ha => ?_
          by_cases hak : a < k + 1
          · rw [Memory.read_below hm hak, Memory.read_below hm' hak]
          · have hne : k ≠ a := by omega
            simpa [read_cons_of_ne _ _ hne] using hread a ha
        rw [sameByte, sameRest]
      · have above : Memory.wfFrom (k' + 1) ((k, v) :: m) = true := wfFrom_cons_iff.mpr ⟨hlt, hk, hv, hm⟩
        exact absurd (hread k' hk').symm (read_ne_of_first_key_lt h' above)

/-- Settles O24: `eq_of_read_eq` from the bound 0, each address below 65536 being a word's. -/
theorem memoryCanonical : Obligations.MemoryCanonical := by
  unfold Obligations.MemoryCanonical
  intro m m' h h' hread
  refine eq_of_read_eq h h' fun a ha => ?_
  simpa [Nat.mod_eq_of_lt ha] using hread (BitVec.ofNat 16 a)

end Sys2Proof.Machine
end

section
/-! Proofs about the arithmetic (45_arithmetic.md), signed overflow and the Decimal flag, and about a push and the
pull that undoes it (48_stack.md). -/

namespace Sys2Proof.Machine

/-! ## Signed overflow -/

/-- The overflow rule says that the sum of the signed numbers and the carry is out of range (R143, R250). -/
theorem overflowBit_iff_out_of_range {a b r : Byte} {c : Bool}
    (hr : r.toNat = (a.toNat + b.toNat + c.toNat) % 256) :
    overflowBit a b r = true ↔ a.toInt + b.toInt + c.toNat < -128 ∨ a.toInt + b.toInt + c.toNat > 127 := by
  have ha := a.isLt
  have hb := b.isLt
  have hc := c.toNat_le
  rw [overflowBit_iff_signs, BitVec.toInt_eq_toNat_cond, BitVec.toInt_eq_toNat_cond, BitVec.toInt_eq_toNat_cond, hr]
  omega

/-- V after the sum with carry (R250). -/
theorem flag_v_addWithCarry_iff (s : State) (m : Byte) :
    (s.addWithCarry m).flag .v = true ↔ s.a.toInt + m.toInt + (s.flag .c).toNat < -128 ∨
      s.a.toInt + m.toInt + (s.flag .c).toNat > 127 := by
  rw [flag_addWithCarry]
  exact overflowBit_iff_out_of_range (toNat_addWithCarry_a s m)

/-- The complement of a byte is its negative less one, as signed numbers (D8). -/
theorem toInt_xor_FF (m : Byte) : (m ^^^ 0xFF#8).toInt = -m.toInt - 1 := by
  have hm := m.isLt
  have complement : (m ^^^ 0xFF#8).toNat = 255 - m.toNat := toNat_xor_FF m
  rw [BitVec.toInt_eq_toNat_cond, BitVec.toInt_eq_toNat_cond, complement]
  omega

/-- What an instruction answers, where its effect is `k` of its operand value and that value is known. -/
theorem eq_of_exec_reader {i : Instr} {mn : Mnemonic} {s t : State} {m : Byte} {k : Byte → State}
    (hmn : i.mnemonic = mn)
    (heffect : ∀ t, Effect mn i.operand s t → ∃ m, s.readOperand i.operand = some m ∧ t = k m)
    (hm : s.readOperand i.operand = some m) (hexec : exec i s = .next t) : t = k m := by
  obtain ⟨m', hm', ht⟩ := heffect t (hmn ▸ effect_of_exec hexec)
  rw [ht, Option.some.inj (hm.symm.trans hm')]

/-- Settles O36: V is the overflow rule of A and M for ADC, of A and the complement of M for SBC. -/
theorem signedOverflow : Obligations.SignedOverflow := by
  unfold Obligations.SignedOverflow
  refine fun i s t m hm hexec => ⟨fun hmn => ?adc, fun hmn => ?sbc⟩
  case adc =>
    rw [eq_of_exec_reader (k := s.addWithCarry) hmn (fun _ hE => hE) hm hexec]
    exact flag_v_addWithCarry_iff s m
  case sbc =>
    rw [eq_of_exec_reader (k := fun m => s.addWithCarry (m ^^^ 0xFF#8)) hmn (fun _ hE => hE) hm hexec,
      flag_v_addWithCarry_iff, toInt_xor_FF]
    omega

/-! ## The Decimal flag -/

/-- The sum with carry neither looks at D nor writes it (R257). -/
theorem addWithCarry_writeFlag_d (s : State) (d : Bool) (m : Byte) :
    (s.writeFlag .d d).addWithCarry m = (s.addWithCarry m).writeFlag .d d := by
  have sameA : ((s.writeFlag .d d).addWithCarry m).a = (s.addWithCarry m).a := by
    apply BitVec.eq_of_toNat_eq
    simp [toNat_addWithCarry_a, flag_writeFlag]
  refine State.ext_flags (State.eq_with_p ?_ ?_ ?_ ?_ ?_ ?_ ?_ ?_) fun f => ?flags
  case flags => cases f <;> simp [flag_writeFlag, flag_addWithCarry, sameA]
  all_goals simp [sameA]

/-- A comparison neither looks at D nor writes it (R257). -/
theorem compare_writeFlag_d (s : State) (d : Bool) (reg m : Byte) :
    (s.writeFlag .d d).compare reg m = (s.compare reg m).writeFlag .d d := by
  refine State.ext_flags (State.eq_with_p ?_ ?_ ?_ ?_ ?_ ?_ ?_ ?_) fun f => ?flags
  case flags => cases f <;> simp [flag_writeFlag, flag_compare]
  all_goals simp

theorem readOperand_writeFlag (s : State) (f : Flag) (c : Bool) (o : Operand) :
    (s.writeFlag f c).readOperand o = s.readOperand o :=
  readOperand_congr (by simp) (by simp) (by simp) (by simp) o

/-- An instruction that does `k` of its operand value commutes with a write of D when `k` does. -/
theorem exec_writeFlag_d {i : Instr} {mn : Mnemonic} {s t : State} {k : State → Byte → State} (d : Bool)
    (hmn : i.mnemonic = mn)
    (heffect : ∀ s t, Effect mn i.operand s t → ∃ m, s.readOperand i.operand = some m ∧ t = k s m)
    (hk : ∀ s m, k (s.writeFlag .d d) m = (k s m).writeFlag .d d) (hexec : exec i s = .next t) :
    exec i (s.writeFlag .d d) = .next (t.writeFlag .d d) := by
  obtain ⟨m, hm, hexec'⟩ := exec_reader hmn (heffect (s.writeFlag .d d))
  rw [readOperand_writeFlag] at hm
  rw [hexec', hk, eq_of_exec_reader hmn (heffect s) hm hexec]

/-- Settles O52: the five instructions are the sum with carry or the comparison of their operand value. -/
theorem decimalIgnored : Obligations.DecimalIgnored := by
  unfold Obligations.DecimalIgnored
  intro i s t d hmn hexec
  simp only [List.mem_cons, List.not_mem_nil, or_false] at hmn
  rcases hmn with hmn | hmn | hmn | hmn | hmn
  · exact exec_writeFlag_d d hmn (fun _ _ hE => hE) (fun s m => addWithCarry_writeFlag_d s d m) hexec
  · exact exec_writeFlag_d d hmn (fun _ _ hE => hE) (fun s m => addWithCarry_writeFlag_d s d (m ^^^ 0xFF#8)) hexec
  all_goals
    refine exec_writeFlag_d d hmn (fun _ _ hE => hE) (fun s m => ?_) hexec
    simp only [State.writeFlag_a, State.writeFlag_x, State.writeFlag_y, compare_writeFlag_d]

/-! ## A push and the pull that undoes it -/

/-- A pull where a push left SP and its byte gives that byte and the SP from before the push (R311, R312). -/
theorem pull_of_pushed {s u : State} {v : Byte} (hmem : s.mem.wf = true) (hsp : u.sp = (s.push v).sp)
    (hread : u.memRead (stackAddr s.sp) = (s.push v).memRead (stackAddr s.sp)) :
    u.pull = (v, { u with sp := s.sp }) := by
  have spRestored : u.sp + 1 = s.sp := by rw [hsp, State.push_sp, BitVec.sub_add_cancel]
  refine Prod.ext ?byte ?state
  case byte => rw [State.pull_fst, spRestored, hread, State.memRead_push_same s v hmem]
  case state => rw [State.pull_snd, spRestored]

theorem exec_pla (s : State) :
    exec .pla s = .next (({ s.pull.2 with a := s.pull.1 } : State).updateNZ s.pull.1) := rfl

theorem exec_plp (s : State) : exec .plp s = .next (s.pull.2.loadStatus s.pull.1) := rfl

/-- The flags that PLP takes from the byte PHP pushed are those of the P that was pushed (R314, R316). -/
theorem flagOf_pushedStatus_of_ne (s : State) {f : Flag} (hb : f ≠ .b) (hu : f ≠ .u) :
    flagOf s.cfg.layout f s.pushedStatus = s.flag f := by
  simp [flagOf_pushedStatus, hb, hu]

/-- Settles O51: the pull gives back the byte pushed, A for PHA and P with B and U set for PHP. -/
theorem pushThenPull : Obligations.PushThenPull := by
  unfold Obligations.PushThenPull
  refine fun s t u hmem hcfg hsp hread => ⟨fun hexec => ?pha, fun hexec => ?php⟩
  case pha =>
    obtain rfl : s.push s.a = t := Host.Outcome.next.inj hexec
    rw [exec_pla, pull_of_pushed hmem hsp hread]
    exact ⟨_, rfl, State.updateNZ_a _ _, State.updateNZ_sp _ _⟩
  case php =>
    obtain rfl : s.push s.pushedStatus = t := Host.Outcome.next.inj hexec
    rw [exec_plp, pull_of_pushed hmem hsp hread]
    refine ⟨_, rfl, State.loadStatus_sp _ _, flag_b_loadStatus _ _, fun f hb hu => ?_⟩
    rw [flag_loadStatus, if_neg hu, if_neg hb, hcfg, flagOf_pushedStatus_of_ne s hb hu]

end Sys2Proof.Machine
end
